-- ==== Sys2Proof/Word.lean ====
section
/-! DEFINITION. The value types of the block: `Num` (00_scope.md R12), the command byte (R17), the pulse bit (30_encoding.md R72). -/

namespace Sys2Proof

/-- The type of every sample, accumulator and coefficient: an exact rational number (R12, R95).
No width, no rounding, no overflow; see log entry 2. -/
abbrev Num := Rat

/-- The 8-bit command byte `cmd[7:0]`, bit 0 least significant (R17, R70). -/
abbrev Byte := BitVec 8

/-- One pulse as it travels on a port: `true` is bit 1, the high pulse; `false` is bit 0, the low
pulse (R72). -/
abbrev Pulse := Bool

end Sys2Proof
end

