-- ==== Sys2Proof/Config.lean ====
section
/-! DEFINITION. What is fixed for the machine: the constants R9 and R10 state, and the one parameter the spec leaves to each implementation, the number of channels (R13). -/

namespace Sys2Proof

/-- `OVERSAMPLE = 32`: "global, fixed" (00_scope.md R9). -/
abbrev Config.oversample : Nat := 32

/-- `FULLSCALE = 2^15 = 32768` (00_scope.md R10). -/
abbrev Config.fullscale : Num := 32768

/-- How many channels the block has beyond its first one. The spec gives no value (R13, D18,
91_not_in_source.md N3), so this constant has no body and no proof can see a number. Log entry 1. -/
opaque Config.furtherChannels : Nat

/-- `NCHAN >= 1`, the number of audio channels (R13). -/
def Config.nchan : Nat := Config.furtherChannels + 1

end Sys2Proof
end

