-- ==== Sys2Proof/Syntax.lean ====
section
/-! DEFINITION. The commands as syntax: units, options, the nine commands of `opcode_table.json` (one constructor a row), and the transaction that carries one on a command port. -/

namespace Sys2Proof

/-- The three units of a channel (00_scope.md R2). -/
inductive UnitName where
  | ups
  | dsm
  | dec
  deriving DecidableEq, Repr

/-- The two strategies of the upsampler (10_state.md R23). -/
inductive UpsMode where
  | interp
  | extrap
  deriving DecidableEq, Repr

/-- The two variants of the modulator, order 1 and order 2 (10_state.md R27). -/
inductive DsmOrder where
  | first
  | second
  deriving DecidableEq, Repr

/-- The nine commands (00_scope.md R3; 30_encoding.md R77), each with its operands. The first operand
of each is the channel whose port the host issued it on: "The channel and the unit are selected by
which port the host uses" (20_memory.md R53), so the unit is the constructor and the channel a
field; see log entry 10. -/
inductive Instr where
  /-- `UPS.START m` (R103). -/
  | upsStart (ch : Nat) (m : UpsMode)
  /-- `UPS.PUSH s` (R104). -/
  | upsPush (ch : Nat) (v : Num)
  /-- `UPS.FLUSH` (R106). -/
  | upsFlush (ch : Nat)
  /-- `DSM.START n` (R122). -/
  | dsmStart (ch : Nat) (n : DsmOrder)
  /-- `DSM.STEP x` (R123). -/
  | dsmStep (ch : Nat) (x : Num)
  /-- `DSM.STOP` (R126). -/
  | dsmStop (ch : Nat)
  /-- `DEC.START k1 k2 k3` (R140). -/
  | decStart (ch : Nat) (k1 k2 k3 : Num)
  /-- `DEC.STEP b` (R141). -/
  | decStep (ch : Nat) (b : Pulse)
  /-- `DEC.STOP` (R143). -/
  | decStop (ch : Nat)
  deriving DecidableEq, Repr

/-- The channel a command is addressed to. -/
def Instr.channel : Instr → Nat
  | .upsStart ch _ => ch
  | .upsPush ch _ => ch
  | .upsFlush ch => ch
  | .dsmStart ch _ => ch
  | .dsmStep ch _ => ch
  | .dsmStop ch => ch
  | .decStart ch _ _ _ => ch
  | .decStep ch _ => ch
  | .decStop ch => ch

/-- The unit a command is for. -/
def Instr.unit : Instr → UnitName
  | .upsStart _ _ => .ups
  | .upsPush _ _ => .ups
  | .upsFlush _ => .ups
  | .dsmStart _ _ => .dsm
  | .dsmStep _ _ => .dsm
  | .dsmStop _ => .dsm
  | .decStart _ _ _ _ => .dec
  | .decStep _ _ => .dec
  | .decStop _ => .dec

/-- One transaction on a command port (20_memory.md R53, 30_encoding.md R70): the port (its channel
and its unit), the command byte and the three operand lanes. -/
structure Transaction where
  channel : Nat
  port : UnitName
  cmd : Byte
  d0 : Num
  d1 : Num
  d2 : Num
  deriving DecidableEq, Repr

end Sys2Proof
end

