-- ==== Sys2Proof/WellFormed.lean ====
section
/-! DEFINITION. The one check on a command as syntax: the channel it is addressed to exists (00_scope.md R13). -/

namespace Sys2Proof

/-- A channel number names one of the `NCHAN` channels `0 .. NCHAN-1` (10_state.md R20). -/
def channelExists (ch : Nat) : Bool := decide (ch < Config.nchan)

/-- A command is well formed when its channel exists. Every operand value is defined: every Num is a
legal sample, the one-bit fields have both values defined, and a coefficient outside `(0,1)` is
answered by a status, not excluded (60_exceptions.md R184). -/
def Instr.wellFormed (i : Instr) : Bool := channelExists i.channel

/-- A transaction is well formed when it arrives on a port that exists. -/
def Transaction.wellFormed (t : Transaction) : Bool := channelExists t.channel

end Sys2Proof
end

