-- ==== Sys2Proof/Decode.lean ====
section
/-! DEFINITION. Decoding a transaction by the opcode map of 30_encoding.md R77, rejecting by name (R80), and the encoder, written from the fields of R71 and R74 to R79. -/

namespace Sys2Proof

/-! The four fields of the command byte (R71). -/

/-- `unit = cmd[7:6]` (R71). -/
def unitField (cmd : Byte) : BitVec 2 := cmd.extractLsb' 6 2

/-- `op = cmd[5:4]` (R71). -/
def opField (cmd : Byte) : BitVec 2 := cmd.extractLsb' 4 2

/-- `z = cmd[3:1]` (R71). -/
def zField (cmd : Byte) : BitVec 3 := cmd.extractLsb' 1 3

/-- `a = cmd[0]`, the one-bit argument (R71). -/
def argBit (cmd : Byte) : Bool := cmd.extractLsb' 0 1 == 1#1

/-- `m = 0` selects `INTERP`, `m = 1` selects `EXTRAP` (R78). -/
def modeOfBit (m : Bool) : UpsMode := if m then .extrap else .interp

/-- `order = o + 1` (R79). -/
def orderOfBit (o : Bool) : DsmOrder := if o then .second else .first

/-- The nine rows of the opcode map (R77). -/
inductive Mnemonic where
  | upsStart | upsPush | upsFlush
  | dsmStart | dsmStep | dsmStop
  | decStart | decStep | decStop
  deriving DecidableEq, Repr

/-- One row of R77: a byte selects the command iff `(cmd AND mask) = value`. -/
structure OpcodeRow where
  name : Mnemonic
  value : Byte
  mask : Byte
  deriving DecidableEq, Repr

/-- The complete opcode map, row by row as R77 prints it. -/
def opcodeMap : List OpcodeRow :=
  [ ⟨.upsStart, 0x40, 0xFE⟩,
    ⟨.upsPush,  0x50, 0xFF⟩,
    ⟨.upsFlush, 0x60, 0xFF⟩,
    ⟨.dsmStart, 0x80, 0xFE⟩,
    ⟨.dsmStep,  0x90, 0xFF⟩,
    ⟨.dsmStop,  0xA0, 0xFF⟩,
    ⟨.decStart, 0xC0, 0xFF⟩,
    ⟨.decStep,  0xD0, 0xFE⟩,
    ⟨.decStop,  0xE0, 0xFF⟩ ]

/-- The byte selects the row (R77). -/
def rowSelects (cmd : Byte) (row : OpcodeRow) : Bool := cmd &&& row.mask == row.value

/-- The command a byte selects, if any; "every byte that matches no row is reserved" (R77). -/
def mnemonicOf (cmd : Byte) : Option Mnemonic := (opcodeMap.find? (rowSelects cmd)).map (·.name)

/-- The unit of a command (R74). -/
def unitOf : Mnemonic → UnitName
  | .upsStart => .ups
  | .upsPush => .ups
  | .upsFlush => .ups
  | .dsmStart => .dsm
  | .dsmStep => .dsm
  | .dsmStop => .dsm
  | .decStart => .dec
  | .decStep => .dec
  | .decStop => .dec

/-- Operand assembly (R83): the one-bit field as it stands, the lanes unchanged, unused lanes ignored. -/
def assembleOperands (t : Transaction) : Mnemonic → Instr
  | .upsStart => .upsStart t.channel (modeOfBit (argBit t.cmd))
  | .upsPush => .upsPush t.channel t.d0
  | .upsFlush => .upsFlush t.channel
  | .dsmStart => .dsmStart t.channel (orderOfBit (argBit t.cmd))
  | .dsmStep => .dsmStep t.channel t.d0
  | .dsmStop => .dsmStop t.channel
  | .decStart => .decStart t.channel t.d0 t.d1 t.d2
  | .decStep => .decStep t.channel (argBit t.cmd)
  | .decStop => .decStop t.channel

/-- Why a transaction holds no command (R80): both are answered `ERR_ILLEGAL`. -/
inductive Illegal where
  /-- The byte matches no row of R77. -/
  | reservedByte
  /-- A defined byte whose `unit` field is not the unit of the port it arrived on. -/
  | wrongPort
  deriving DecidableEq, Repr

/-- Decoding, total on every transaction: the command, or the reason it is illegal (R77, R80). -/
def decode (t : Transaction) : Except Illegal Instr :=
  match mnemonicOf t.cmd with
  | none => .error .reservedByte
  | some n => if unitOf n = t.port then .ok (assembleOperands t n) else .error .wrongPort

/-! The encoder, from the fields. -/

/-- The `unit` value of each unit (R74). -/
def unitCode : UnitName → BitVec 2
  | .ups => 0b01#2
  | .dsm => 0b10#2
  | .dec => 0b11#2

/-- `op = START` (R75). -/
def opStart : BitVec 2 := 0b00#2

/-- `op = DATA` (R75). -/
def opData : BitVec 2 := 0b01#2

/-- `op = STOP` (R75). -/
def opStop : BitVec 2 := 0b10#2

/-- The `op` value of each command (R75). -/
def opCode : Instr → BitVec 2
  | .upsStart _ _ => opStart
  | .upsPush _ _ => opData
  | .upsFlush _ => opStop
  | .dsmStart _ _ => opStart
  | .dsmStep _ _ => opData
  | .dsmStop _ => opStop
  | .decStart _ _ _ _ => opStart
  | .decStep _ _ => opData
  | .decStop _ => opStop

/-- The one-bit argument of each command: `m`, `o`, `b`, or 0 (R76, R78, R79). -/
def argOf : Instr → Bool
  | .upsStart _ m => m == .extrap
  | .upsPush _ _ => false
  | .upsFlush _ => false
  | .dsmStart _ n => n == .second
  | .dsmStep _ _ => false
  | .dsmStop _ => false
  | .decStart _ _ _ _ => false
  | .decStep _ b => b
  | .decStop _ => false

/-- The byte `unit[7:6] op[5:4] z[3:1] a[0]` with `z = 0b000` (R71, R76). -/
def commandByte (u : UnitName) (op : BitVec 2) (a : Bool) : Byte :=
  unitCode u ++ op ++ 0b000#3 ++ BitVec.ofBool a

/-- The command byte of a command. -/
def encodeByte (i : Instr) : Byte := commandByte i.unit (opCode i) (argOf i)

/-- The lanes a command uses, 0 in the others (R77, R83). -/
def lanesOf : Instr → Num × Num × Num
  | .upsStart _ _ => (0, 0, 0)
  | .upsPush _ v => (v, 0, 0)
  | .upsFlush _ => (0, 0, 0)
  | .dsmStart _ _ => (0, 0, 0)
  | .dsmStep _ x => (x, 0, 0)
  | .dsmStop _ => (0, 0, 0)
  | .decStart _ k1 k2 k3 => (k1, k2, k3)
  | .decStep _ _ => (0, 0, 0)
  | .decStop _ => (0, 0, 0)

/-- The transaction that issues a command on its own unit's port. -/
def encode (i : Instr) : Transaction where
  channel := i.channel
  port := i.unit
  cmd := encodeByte i
  d0 := (lanesOf i).1
  d1 := (lanesOf i).2.1
  d2 := (lanesOf i).2.2

/-! The opcode table's numbering: one byte, bit 0 least significant. -/

/-- The port on which a byte can be a command: that of its `unit` field; `0b00` names no unit (R74),
so such a byte is reserved on every port and the UPS port stands for all. Log entry 10. -/
def portOfByte (cmd : Byte) : UnitName :=
  if unitField cmd = 0b10#2 then .dsm else if unitField cmd = 0b11#2 then .dec else .ups

/-- The transaction with the byte of value `w` on channel 0, on the port its `unit` field names, the
operand lanes 0. -/
def tableTransaction (w : Nat) : Transaction where
  channel := 0
  port := portOfByte (BitVec.ofNat 8 w)
  cmd := BitVec.ofNat 8 w
  d0 := 0
  d1 := 0
  d2 := 0

/-- The command the decoder reads from an opcode-table word of `nbits` bits: every command is one byte
(R82), so the table's word is that byte and `nbits` is always 8. -/
def decodeTableWord (_nbits w : Nat) : Option Instr :=
  match decode (tableTransaction w) with
  | .ok i => some i
  | .error _ => none

end Sys2Proof
end

