-- ==== Sys2Proof/Machine/State.lean ====
section
/-! DEFINITION. The state: the eighteen registers of each channel (10_state.md R20), and at the ports the host's inputs not yet performed and the responses given. Reset (R43, R200). Faults and refusals. -/

namespace Sys2Proof.Machine

/-- The UPS registers (R22 to R25). -/
structure Ups where
  /-- `ups.run`: a pass is open (R22). -/
  run : Bool
  /-- `ups.mode`: the strategy of the open pass (R23). -/
  mode : UpsMode
  /-- `ups.valid`: `ups.prev` holds a sample whose block is not yet emitted (R24). -/
  valid : Bool
  /-- `ups.prev`: the most recent input sample (R25). -/
  prev : Num
  deriving DecidableEq, Repr

/-- The DSM registers (R26 to R30). -/
structure Dsm where
  /-- `dsm.run`: a pass is open (R26). -/
  run : Bool
  /-- `dsm.order`: the variant of the open pass (R27). -/
  order : DsmOrder
  /-- `dsm.error`: the first-order error carried to the next sample (R28). -/
  error : Num
  /-- `dsm.integrator`: the second-order modulator's first accumulator (R29). -/
  integrator : Num
  /-- `dsm.integrator2`: its second accumulator, which decides the pulse (R30). -/
  integrator2 : Num
  deriving DecidableEq, Repr

/-- The DEC registers (R31 to R37). -/
structure Dec where
  /-- `dec.run`: a pass is open (R31). -/
  run : Bool
  /-- `dec.k1`: leak coefficient of stage 1 (R32). -/
  k1 : Num
  /-- `dec.k2`: leak coefficient of stage 2 (R32). -/
  k2 : Num
  /-- `dec.k3`: leak coefficient of stage 3 (R32). -/
  k3 : Num
  /-- `dec.y1`: first leaky integrator (R33). -/
  y1 : Num
  /-- `dec.y2`: second leaky integrator (R34). -/
  y2 : Num
  /-- `dec.y3`: third leaky integrator (R35). -/
  y3 : Num
  /-- `dec.period`: running sum of `dec.y3` over the current block (R36). -/
  period : Num
  /-- `dec.cnt`: pulses of the current block consumed (R37). -/
  cnt : Nat
  deriving DecidableEq, Repr

/-- One channel: its own UPS, DSM and DEC (R13, R20). -/
structure Channel where
  ups : Ups
  dsm : Dsm
  dec : Dec
  deriving DecidableEq, Repr

/-- The status codes (60_exceptions.md R181). -/
inductive Status where
  | ok
  | errIllegal
  | errIdle
  | errParam
  deriving DecidableEq, Repr

/-- An element of an emitted list: a Num (UPS, DEC) or a pulse bit (DSM) (30_encoding.md R73). -/
inductive Datum where
  | num (v : Num)
  | pulse (b : Pulse)
  deriving DecidableEq, Repr

/-- What a command answers: its status and its emitted list, in index order (R73). -/
structure Reply where
  status : Status
  emitted : List Datum
  deriving DecidableEq, Repr

/-- A reply on the response port of one unit of one channel (20_memory.md R53). -/
structure Response where
  channel : Nat
  unit : UnitName
  status : Status
  emitted : List Datum
  deriving DecidableEq, Repr

/-- What the outside does to the block: issue a transaction on a command port (R53), or reset
(70_reset_and_hazards.md R200: "an event, not a command"). -/
inductive Input where
  | command (t : Transaction)
  | reset
  deriving DecidableEq, Repr

/-- The whole state. `channels` is the block's state (R20). `inputs` and `responses` are the model's
own record of its ports, not registers of the block: what the host has issued and the block not yet
performed, next one first, and what the block has answered, oldest first. Log entries 4 and 5. -/
structure State where
  channels : List Channel
  inputs : List Input
  responses : List Response
  deriving DecidableEq, Repr

/-- Why the machine stops with a fault. -/
inductive Fault where
  /-- Raised by every command, legal or not, that is addressed to a channel the state does not have: no
  such port exists (R13, R53). Safe: the machine stops where no hardware event corresponds. -/
  | noSuchPort (ch : Nat) (u : UnitName)
  deriving DecidableEq, Repr

/-- Why an instruction has no meaning. -/
inductive Refusal where
  /-- Raised by `exec` for an instruction that has no meaning yet; no arm does so now. Safe: the machine
  stops. -/
  | notModelled (mnemonic : String)
  deriving DecidableEq, Repr

/-- UPS after reset: `run`, `valid`, `prev` are R22, R24, R25; `mode` is unspecified and unobservable
(R23) and takes the value DESIGN CHOICE of log entry 3. -/
def Ups.reset : Ups := { run := false, mode := .interp, valid := false, prev := 0 }

/-- DSM after reset: R26, R28 to R30; `order` is unspecified and unobservable (R27) and takes the value
DESIGN CHOICE of log entry 3. -/
def Dsm.reset : Dsm := { run := false, order := .first, error := 0, integrator := 0, integrator2 := 0 }

/-- DEC after reset: R31, R33 to R37; `k1`, `k2`, `k3` are unspecified and unobservable (R32) and take
the value DESIGN CHOICE of log entry 3. -/
def Dec.reset : Dec :=
  { run := false, k1 := 0, k2 := 0, k3 := 0, y1 := 0, y2 := 0, y3 := 0, period := 0, cnt := 0 }

/-- A channel after reset (R43). -/
def Channel.reset : Channel := { ups := .reset, dsm := .reset, dec := .reset }

/-- The machine right after reset (R43, R200): `NCHAN` channels, each reset; nothing issued yet and
nothing answered. -/
def State.reset : State :=
  { channels := List.replicate Config.nchan Channel.reset, inputs := [], responses := [] }

end Sys2Proof.Machine
end

