-- ==== Sys2Proof/Machine/Operands.lean ====
section
/-! DEFINITION. Operand and result forms: the value of a pulse bit, the emitted lists of Nums and of pulse bits, the status codes as bits. -/

namespace Sys2Proof.Machine

/-- `pv(1) = +FULLSCALE`, `pv(0) = -FULLSCALE` (30_encoding.md R72). -/
def pv (b : Pulse) : Num := if b then Config.fullscale else -Config.fullscale

/-- An emitted list of Nums, in index order (UPS, DEC; R73). -/
def nums (l : List Num) : List Datum := l.map .num

/-- An emitted list of pulse bits, in index order (DSM; R73). -/
def pulses (l : List Pulse) : List Datum := l.map .pulse

/-- The two status bits (R181). -/
def statusCode : Status → BitVec 2
  | .ok => 0b00#2
  | .errIllegal => 0b01#2
  | .errIdle => 0b10#2
  | .errParam => 0b11#2

end Sys2Proof.Machine
end

