-- ==== Sys2Proof/Machine/Flags.lean ====
section
/-! DEFINITION. The tests on values. There are no condition codes (10_state.md R39): a comparison is consumed inside the command that makes it. -/

namespace Sys2Proof.Machine

/-- The comparator of order 1, `inp >= 0`: non-strict, a tie gives the high pulse (42_modulator.md
R124, R128). -/
def comparatorOrder1 (inp : Num) : Pulse := decide (0 ≤ inp)

/-- The comparator of order 2, `integrator2 > 0`: strict, a tie gives the low pulse (R125, R128). -/
def comparatorOrder2 (jPrev : Num) : Pulse := decide (0 < jPrev)

/-- `0 < k < 1` (43_demodulator.md R140). -/
def coefficientLegal (k : Num) : Bool := decide (0 < k ∧ k < 1)

/-- The parameter check of `DEC.START`, on all three coefficients (R140, R184). -/
def coefficientsLegal (k1 k2 k3 : Num) : Bool :=
  coefficientLegal k1 && coefficientLegal k2 && coefficientLegal k3

/-- The test that closes a block of 32 pulses (R141). -/
def blockComplete (cnt : Nat) : Bool := cnt == Config.oversample

end Sys2Proof.Machine
end

