-- ==== Sys2Proof/Machine/Ops.lean ====
section
/-! DEFINITION. The shared operations: reading and writing one unit of one channel, answering on its response port, the error response (all there is of an exception, 60_exceptions.md R190), and the reset event. -/

namespace Sys2Proof.Machine

/-- `s` with channel `ch` replaced. -/
def State.putChannel (s : State) (ch : Nat) (c : Channel) : State :=
  { s with channels := s.channels.set ch c }

/-- `s` with one more response on its port (20_memory.md R53: "exactly one response"). -/
def State.respond (s : State) (ch : Nat) (u : UnitName) (r : Reply) : State :=
  { s with responses := s.responses ++ [{ channel := ch, unit := u, status := r.status, emitted := r.emitted }] }

/-- `s` with the inputs still to perform replaced. -/
def State.withInputs (s : State) (is : List Input) : State := { s with inputs := is }

/-- A successful answer: status `OK` and the emitted list (00_scope.md R19). -/
def okReply (emitted : List Datum) : Reply := { status := .ok, emitted := emitted }

/-- TAKING AN ERROR, the one shared form of it: the registers as they were, the status, an empty
emitted list (60_exceptions.md R186, R190). It stands for trap entry; there is no trap return. -/
def failWith {ρ : Type} (regs : ρ) (st : Status) : ρ × Reply := (regs, { status := st, emitted := [] })

/-- Performs one atomic transition of one unit (00_scope.md R16, 20_memory.md R58): `f` gives the
channel's new registers and the reply, which goes out on port `u` of channel `ch`. -/
def onChannel (ch : Nat) (u : UnitName) (s : State) (f : Channel → Channel × Reply) :
    Host.Outcome State Fault Refusal :=
  match s.channels[ch]? with
  | none => .fault (.noSuchPort ch u)
  | some c => .next ((s.putChannel ch (f c).1).respond ch u (f c).2)

/-- A transition of the UPS unit of channel `ch`; it touches only `ups.*` (20_memory.md R62). -/
def onUps (ch : Nat) (s : State) (f : Ups → Ups × Reply) : Host.Outcome State Fault Refusal :=
  onChannel ch .ups s fun c => ({ c with ups := (f c.ups).1 }, (f c.ups).2)

/-- A transition of the DSM unit of channel `ch`; it touches only `dsm.*` (R62). -/
def onDsm (ch : Nat) (s : State) (f : Dsm → Dsm × Reply) : Host.Outcome State Fault Refusal :=
  onChannel ch .dsm s fun c => ({ c with dsm := (f c.dsm).1 }, (f c.dsm).2)

/-- A transition of the DEC unit of channel `ch`; it touches only `dec.*` (R62). -/
def onDec (ch : Nat) (s : State) (f : Dec → Dec × Reply) : Host.Outcome State Fault Refusal :=
  onChannel ch .dec s fun c => ({ c with dec := (f c.dec).1 }, (f c.dec).2)

/-- The answer to an illegal transaction: `ERR_ILLEGAL` on the port it arrived on, no register read or
written, nothing emitted (R182). -/
def rejectIllegal (t : Transaction) (s : State) : Host.Outcome State Fault Refusal :=
  onChannel t.channel t.port s fun c => failWith c .errIllegal

/-- The reset event: "it acts on every unit of every channel at once and sets every register to the
reset value"; nothing is emitted for an open pass (70_reset_and_hazards.md R200). The latched options
take the values of log entry 3; what the host has issued and received is the host's (log entry 9). -/
def resetEvent (s : State) : State := { s with channels := s.channels.map fun _ => Channel.reset }

end Sys2Proof.Machine
end

