-- ==== Sys2Proof/Machine/Demodulator.lean ====
section
/-! DEFINITION. DEC: `DEC.START`, `DEC.STEP`, `DEC.STOP` (43_demodulator.md section 1). -/

namespace Sys2Proof.Machine

/-- One leaky integrator, `y·(1 − k) + k·v` (R141). -/
def leak (k y v : Num) : Num := y * (1 - k) + k * v

/-- `DEC.START k1 k2 k3` on the unit (R140): `ERR_PARAM` and nothing written unless all three
coefficients lie strictly between 0 and 1; an open pass is abandoned only by a legal start. -/
def decStartUnit (k1 k2 k3 : Num) (d : Dec) : Dec × Reply :=
  if coefficientsLegal k1 k2 k3 then
    ({ run := true, k1 := k1, k2 := k2, k3 := k3, y1 := 0, y2 := 0, y3 := 0, period := 0, cnt := 0 },
      okReply [])
  else failWith d .errParam

/-- The three stages in order, each fed by the value the one before it has just written (R141, R206). -/
def filterPulse (b : Pulse) (d : Dec) : Dec :=
  let y1 := leak d.k1 d.y1 (pv b)
  let y2 := leak d.k2 d.y2 y1
  let y3 := leak d.k3 d.y3 y2
  { d with y1 := y1, y2 := y2, y3 := y3 }

/-- Accumulates the new `y3` into the block, and on the 32nd pulse emits the mean and clears `period`
and `cnt`, not the filter (R141). -/
def decimate (d : Dec) : Dec × Reply :=
  let period := d.period + d.y3
  let cnt := d.cnt + 1
  if blockComplete cnt then ({ d with period := 0, cnt := 0 }, okReply (nums [period / 32]))
  else ({ d with period := period, cnt := cnt }, okReply [])

/-- `DEC.STEP b` on the unit (R141). -/
def decStepUnit (b : Pulse) (d : Dec) : Dec × Reply :=
  if d.run then decimate (filterPulse b d) else failWith d .errIdle

/-- `DEC.STOP` on the unit (R143): a partial block is dropped; `k1`, `k2`, `k3` keep their values. -/
def decStopUnit (d : Dec) : Dec × Reply :=
  if d.run then
    ({ d with y1 := 0, y2 := 0, y3 := 0, period := 0, cnt := 0, run := false }, okReply [])
  else failWith d .errIdle

/-- `DEC.START k1 k2 k3` (R140). -/
def execDecStart (ch : Nat) (k1 k2 k3 : Num) (s : State) : Host.Outcome State Fault Refusal :=
  onDec ch s (decStartUnit k1 k2 k3)

/-- `DEC.STEP b` (R141). -/
def execDecStep (ch : Nat) (b : Pulse) (s : State) : Host.Outcome State Fault Refusal :=
  onDec ch s (decStepUnit b)

/-- `DEC.STOP` (R143). -/
def execDecStop (ch : Nat) (s : State) : Host.Outcome State Fault Refusal :=
  onDec ch s decStopUnit

end Sys2Proof.Machine
end

