-- ==== Sys2Proof/Machine/Modulator.lean ====
section
/-! DEFINITION. DSM: `DSM.START`, `DSM.STEP` in both orders, `DSM.STOP` (42_modulator.md section 2). -/

namespace Sys2Proof.Machine

/-- `DSM.START n` on the unit (R122): never an error, and an open pass is abandoned. -/
def dsmStartUnit (n : DsmOrder) (_d : Dsm) : Dsm × Reply :=
  ({ run := true, order := n, error := 0, integrator := 0, integrator2 := 0 }, okReply [])

/-- One step of the first-order modulator, error feedback (R124). -/
def dsmStepOrder1 (x : Num) (d : Dsm) : Dsm × Reply :=
  let inp := x + d.error
  let b := comparatorOrder1 inp
  ({ d with error := inp - pv b }, okReply (pulses [b]))

/-- One step of the second-order modulator, in the order R125 writes its assignments: the decision is
taken from `integrator2` before the step, and `integrator2` adds the `integrator` already updated
twice (R205). -/
def dsmStepOrder2 (x : Num) (d : Dsm) : Dsm × Reply :=
  let jPrev := d.integrator2
  let integratorIn := d.integrator + x
  let b := comparatorOrder2 jPrev
  let integratorOut := integratorIn - pv b
  let integrator2Fed := d.integrator2 - pv b
  ({ d with integrator := integratorOut, integrator2 := integrator2Fed + integratorOut },
    okReply (pulses [b]))

/-- `DSM.STEP x` on the unit: the dispatch on `dsm.order` (R123). -/
def dsmStepUnit (x : Num) (d : Dsm) : Dsm × Reply :=
  if d.run then
    match d.order with
    | .first => dsmStepOrder1 x d
    | .second => dsmStepOrder2 x d
  else failWith d .errIdle

/-- `DSM.STOP` on the unit (R126): `dsm.order` keeps its value. -/
def dsmStopUnit (d : Dsm) : Dsm × Reply :=
  if d.run then
    ({ d with error := 0, integrator := 0, integrator2 := 0, run := false }, okReply [])
  else failWith d .errIdle

/-- `DSM.START n` (R122). -/
def execDsmStart (ch : Nat) (n : DsmOrder) (s : State) : Host.Outcome State Fault Refusal :=
  onDsm ch s (dsmStartUnit n)

/-- `DSM.STEP x` (R123). -/
def execDsmStep (ch : Nat) (x : Num) (s : State) : Host.Outcome State Fault Refusal :=
  onDsm ch s (dsmStepUnit x)

/-- `DSM.STOP` (R126). -/
def execDsmStop (ch : Nat) (s : State) : Host.Outcome State Fault Refusal :=
  onDsm ch s dsmStopUnit

end Sys2Proof.Machine
end

