-- ==== Sys2Proof/Machine/Upsampler.lean ====
section
/-! DEFINITION. UPS: `UPS.START`, `UPS.PUSH`, `UPS.FLUSH` (41_upsampler.md section 2). -/

namespace Sys2Proof.Machine

/-- `blk(mode, a, b)`: the 32 output samples of input sample `a` whose successor is `b` (R105). -/
def blk (mode : UpsMode) (a b : Num) : List Num :=
  match mode with
  | .interp => (List.range Config.oversample).map fun (r : Nat) => a + (b - a) * (r : Num) / 32
  | .extrap => List.replicate Config.oversample (3 * a - 2 * b)

/-- `UPS.START m` on the unit (R103): never an error, and an open pass is abandoned. -/
def upsStartUnit (m : UpsMode) (_u : Ups) : Ups × Reply :=
  ({ run := true, mode := m, valid := false, prev := 0 }, okReply [])

/-- `UPS.PUSH v` on the unit (R104). -/
def upsPushUnit (v : Num) (u : Ups) : Ups × Reply :=
  if u.run then
    ({ u with prev := v, valid := true },
      okReply (if u.valid then nums (blk u.mode u.prev v) else []))
  else failWith u .errIdle

/-- `UPS.FLUSH` on the unit (R106). -/
def upsFlushUnit (u : Ups) : Ups × Reply :=
  if u.run then
    ({ u with valid := false, prev := 0, run := false },
      okReply (if u.valid then nums (List.replicate Config.oversample u.prev) else []))
  else failWith u .errIdle

/-- `UPS.START m` (R103). -/
def execUpsStart (ch : Nat) (m : UpsMode) (s : State) : Host.Outcome State Fault Refusal :=
  onUps ch s (upsStartUnit m)

/-- `UPS.PUSH v` (R104). -/
def execUpsPush (ch : Nat) (v : Num) (s : State) : Host.Outcome State Fault Refusal :=
  onUps ch s (upsPushUnit v)

/-- `UPS.FLUSH` (R106). -/
def execUpsFlush (ch : Nat) (s : State) : Host.Outcome State Fault Refusal :=
  onUps ch s upsFlushUnit

end Sys2Proof.Machine
end

