-- ==== Sys2Proof/Machine/Dispatch.lean ====
section
/-! DEFINITION. `exec`: one arm per command, each one call of its meaning. -/

namespace Sys2Proof.Machine

def exec (i : Instr) (s : State) : Host.Outcome State Fault Refusal :=
  match i with
  | .upsStart ch m => Sys2Proof.Machine.execUpsStart ch m s
  | .upsPush ch v => Sys2Proof.Machine.execUpsPush ch v s
  | .upsFlush ch => Sys2Proof.Machine.execUpsFlush ch s
  | .dsmStart ch n => Sys2Proof.Machine.execDsmStart ch n s
  | .dsmStep ch x => Sys2Proof.Machine.execDsmStep ch x s
  | .dsmStop ch => Sys2Proof.Machine.execDsmStop ch s
  | .decStart ch k1 k2 k3 => Sys2Proof.Machine.execDecStart ch k1 k2 k3 s
  | .decStep ch b => Sys2Proof.Machine.execDecStep ch b s
  | .decStop ch => Sys2Proof.Machine.execDecStop ch s

end Sys2Proof.Machine
end

