-- ==== Sys2Proof/Machine/Transact.lean ====
section
/-! DEFINITION. Performing one input: a transaction decoded and executed or rejected, the reset event, or nothing issued. -/

namespace Sys2Proof.Machine

/-- Performs a transaction: decode comes first (60_exceptions.md R189), then the command's own
meaning, or `ERR_ILLEGAL` (R182). -/
def performTransaction (t : Transaction) (s : State) : Host.Outcome State Fault Refusal :=
  match decode t with
  | .ok i => exec i s
  | .error _ => rejectIllegal t s

/-- Performs one input of the outside. -/
def performInput (i : Input) (s : State) : Host.Outcome State Fault Refusal :=
  match i with
  | .command t => performTransaction t s
  | .reset => .next (resetEvent s)

/-- Takes the next input in the order the host issued them (20_memory.md R60) and performs it. With
nothing issued the block waits unchanged: it "never initiates a transaction" (R67). Log entry 6. -/
def performNext (s : State) : Host.Outcome State Fault Refusal :=
  match s.inputs with
  | [] => .next s
  | i :: rest => performInput i (s.withInputs rest)

end Sys2Proof.Machine
end

