-- ==== Sys2Proof/Machine/Step.lean ====
section
/-! DEFINITION. One step of the machine, and the host's placing of a command where the step takes its next one. -/

namespace Sys2Proof.Machine

/-- One step: the next input, performed whole (00_scope.md R16: one command is one atomic transition). -/
def step (s : State) : Host.Outcome State Fault Refusal := performNext s

/-- `s` with the command of byte `w` issued next, on channel 0 and the port its `unit` field names, its
lanes 0. The block fetches nothing (10_state.md R38): a program is issued from outside, so this stands
for the host issuing one command. Log entry 4. -/
def State.withFetchWord (s : State) (_nbits w : Nat) : State :=
  s.withInputs (.command (tableTransaction w) :: s.inputs)

end Sys2Proof.Machine
end

