-- ==== Sys2Proof/Machine/Source.lean ====
section
/-! DEFINITION. The source's functions on whole streams, which a pass of commands computes: R100 to R102 (UPS), R120, R121 (DSM), R142, R146 (DEC), R93 (round trip). Written from their own rules, not from the commands. -/

namespace Sys2Proof.Machine

/-- Output index `32·i + r` of `upsample_m(S)` by R100 and R101: from `S[i]` and its successor, or the
last sample held. An index past the Signal is never asked for. -/
def upsampleAt (m : UpsMode) (signal : List Num) (i r : Nat) : Num :=
  match signal[i]?, signal[i + 1]? with
  | some a, some b =>
    match m with
    | .interp => a + (b - a) * (r : Num) / 32
    | .extrap => 3 * a - 2 * b
  | some a, none => a
  | none, _ => 0

/-- `upsample_m(S)`, of length `32·len(S)` (R100, R101, R102). -/
def upsample (m : UpsMode) (signal : List Num) : List Num :=
  (List.range (Config.oversample * signal.length)).map fun j =>
    upsampleAt m signal (j / Config.oversample) (j % Config.oversample)

/-- `modulate_order1` from error `e` (R120): `inp = x + e`, `b = inp >= 0`, next error `inp - pv(b)`. -/
def modulateOrder1From (e : Num) : List Num → List Pulse
  | [] => []
  | x :: xs =>
    let b := comparatorOrder1 (x + e)
    b :: modulateOrder1From (x + e - pv b) xs

/-- `modulate_order1(X)` (R120). -/
def modulateOrder1 (xs : List Num) : List Pulse := modulateOrder1From 0 xs

/-- `modulate_order2` from `I = i`, `J = j` (R121): `b = J > 0`, `I' = I + x - pv(b)`,
`J' = J - pv(b) + I'`. -/
def modulateOrder2From (i j : Num) : List Num → List Pulse
  | [] => []
  | x :: xs =>
    let b := comparatorOrder2 j
    b :: modulateOrder2From (i + x - pv b) (j - pv b + (i + x - pv b)) xs

/-- `modulate_order2(X)` (R121). -/
def modulateOrder2 (xs : List Num) : List Pulse := modulateOrder2From 0 0 xs

/-- The modulator of either order (R91). -/
def modulate (n : DsmOrder) (xs : List Num) : List Pulse :=
  match n with
  | .first => modulateOrder1 xs
  | .second => modulateOrder2 xs

/-- The values `(y1(n), y2(n), y3(n))` of R142, by recursion on `n`; pulse `n` of the stream feeds step
`n + 1`. A position past the stream is never asked for by `demodulate3`. -/
def cascade (k1 k2 k3 : Num) (p : List Pulse) : Nat → Num × Num × Num
  | 0 => (0, 0, 0)
  | n + 1 =>
    let old := cascade k1 k2 k3 p n
    let y1 := old.1 * (1 - k1) + k1 * pv (p.getD n false)
    let y2 := old.2.1 * (1 - k2) + k2 * y1
    let y3 := old.2.2 * (1 - k3) + k3 * y2
    (y1, y2, y3)

/-- `R[j]`: the mean of `y3(32j + 1), …, y3(32j + 32)` (R142). -/
def blockMean (k1 k2 k3 : Num) (p : List Pulse) (j : Nat) : Num :=
  ((List.range Config.oversample).map fun i =>
    (cascade k1 k2 k3 p (Config.oversample * j + i + 1)).2.2).sum / 32

/-- `demodulate3(P, k1, k2, k3)`, of length `floor(len(P) / 32)` (R142, R144). -/
def demodulate3 (p : List Pulse) (k1 k2 k3 : Num) : List Num :=
  (List.range (p.length / Config.oversample)).map fun j => blockMean k1 k2 k3 p j

/-- `demodulate(P, k)`: equal coefficients (R146). -/
def demodulate (p : List Pulse) (k : Num) : List Num := demodulate3 p k k k

/-- `ROUNDTRIP m, n, k, S` as a function (30_encoding.md R93). -/
def roundtrip (m : UpsMode) (n : DsmOrder) (k : Num) (signal : List Num) : List Num :=
  demodulate (modulate n (upsample m signal)) k

end Sys2Proof.Machine
end

