-- ==== Sys2Proof/Machine/Passes.lean ====
section
/-! DEFINITION. The pseudo-instructions as command sequences (30_encoding.md R90 to R93), what the host puts on the ports for them, and what it collects from the response ports. -/

namespace Sys2Proof.Machine

/-- The inputs that issue a sequence of commands, each on its own unit's port. -/
def issue (l : List Instr) : List Input := l.map fun i => .command (encode i)

/-- A run of `k` steps, stopping at the first fault or refusal (70_reset_and_hazards.md R212). -/
def performSteps : Nat → State → Host.Outcome State Fault Refusal
  | 0, s => .next s
  | k + 1, s =>
    match step s with
    | .next t => performSteps k t
    | .fault r => .fault r
    | .refused r => .refused r

/-- `UPSAMPLE m, S` on channel `ch` (R90). -/
def upsampleProgram (ch : Nat) (m : UpsMode) (signal : List Num) : List Instr :=
  .upsStart ch m :: (signal.map (.upsPush ch) ++ [.upsFlush ch])

/-- `MODULATE n, X` on channel `ch` (R91). -/
def modulateProgram (ch : Nat) (n : DsmOrder) (xs : List Num) : List Instr :=
  .dsmStart ch n :: (xs.map (.dsmStep ch) ++ [.dsmStop ch])

/-- `DEMODULATE P, k1, k2, k3` on channel `ch` (R92). -/
def demodulateProgram (ch : Nat) (p : List Pulse) (k1 k2 k3 : Num) : List Instr :=
  .decStart ch k1 k2 k3 :: (p.map (.decStep ch) ++ [.decStop ch])

/-- `ROUNDTRIP m, n, k, S` on channel `ch` (R93): the host carries each unit's output to the next unit
(20_memory.md R52). -/
def roundtripProgram (ch : Nat) (m : UpsMode) (n : DsmOrder) (k : Num) (signal : List Num) : List Instr :=
  upsampleProgram ch m signal
    ++ (modulateProgram ch n (upsample m signal)
    ++ demodulateProgram ch (modulate n (upsample m signal)) k k k)

/-- The output stream of one unit of one channel: the concatenation of its emitted lists, in the order
of its responses (20_memory.md R51, 70_reset_and_hazards.md R212). -/
def outputOf (ch : Nat) (u : UnitName) (rs : List Response) : List Datum :=
  (rs.filter fun r => r.channel == ch && r.unit == u).flatMap (·.emitted)

end Sys2Proof.Machine
end

