-- ==== Sys2Proof/Machine/Assembler.lean ====
section
/-! DEFINITION. The assembler syntax of 30_encoding.md R85 to R87: a text, as a list of characters, to transactions. Log entry 14. -/

namespace Sys2Proof.Machine

/-- `;` starts a comment (R85). -/
def dropComment : List Char → List Char
  | [] => []
  | c :: cs => if c = ';' then [] else c :: dropComment cs

/-- Splits at blanks; `cur` is the word being read. -/
def wordsFrom (cur : List Char) : List Char → List (List Char)
  | [] => if cur = [] then [] else [cur]
  | c :: cs =>
    if c = ' ' ∨ c = '\t' then
      (if cur = [] then wordsFrom [] cs else cur :: wordsFrom [] cs)
    else wordsFrom (cur ++ [c]) cs

/-- The words of a line, its comment dropped. -/
def wordsOf (line : List Char) : List (List Char) := wordsFrom [] (dropComment line)

/-- What stands before and after the first `sep`, if there is one. -/
def splitAtChar (sep : Char) : List Char → Option (List Char × List Char)
  | [] => none
  | c :: cs =>
    if c = sep then some ([], cs)
    else
      match splitAtChar sep cs with
      | some (a, b) => some (c :: a, b)
      | none => none

/-- The value of a digit in base 16 (R85's `<hex>`), below 10 for a decimal one. -/
def digitValue (c : Char) : Option Nat :=
  if '0' ≤ c ∧ c ≤ '9' then some (c.toNat - 48)
  else if 'a' ≤ c ∧ c ≤ 'f' then some (c.toNat - 87)
  else if 'A' ≤ c ∧ c ≤ 'F' then some (c.toNat - 55)
  else none

/-- The digits that follow a value already read, in a base. -/
def natFrom (base acc : Nat) : List Char → Option Nat
  | [] => some acc
  | c :: cs =>
    match digitValue c with
    | some d => if d < base then natFrom base (base * acc + d) cs else none
    | none => none

/-- An unsigned number in a base: at least one digit. -/
def parseNat (base : Nat) (cs : List Char) : Option Nat := if cs = [] then none else natFrom base 0 cs

/-- A decimal integer, such as `-100` (R86). -/
def parseInt (cs : List Char) : Option Int :=
  match cs with
  | '-' :: ds => (parseNat 10 ds).map fun n => -(n : Int)
  | ds => (parseNat 10 ds).map fun n => (n : Int)

/-- An unsigned decimal fraction from its two parts: `0.0253` is exactly `253/10000` (R86). -/
def parseFraction (whole frac : List Char) : Option Num :=
  match parseNat 10 whole, parseNat 10 frac with
  | some a, some b => some ((a : Num) + (b : Num) / ((10 ^ frac.length : Nat) : Num))
  | _, _ => none

/-- A `<num>` literal: an integer, a decimal fraction or a ratio of integers, one exact rational (R86). -/
def parseNum (cs : List Char) : Option Num :=
  match splitAtChar '/' cs with
  | some (n, d) =>
    match parseInt n, parseInt d with
    | some a, some b => if b = 0 then none else some ((a : Num) / (b : Num))
    | _, _ => none
  | none =>
    match splitAtChar '.' cs with
    | some ('-' :: w, f) => (parseFraction w f).map fun v => -v
    | some (w, f) => parseFraction w f
    | none => (parseInt cs).map fun z => (z : Num)

/-- A `<hex>` byte, with or without `0x`. -/
def parseByte (cs : List Char) : Option Byte :=
  let digits := match cs with
    | '0' :: 'x' :: ds => ds
    | ds => ds
  match parseNat 16 digits with
  | some n => if n < 256 then some (BitVec.ofNat 8 n) else none
  | none => none

/-- The words a command line is made of, matched against the table of R85. -/
def parseCommand (ch : Nat) (mnemonic : List Char) (args : List (List Char)) : Option Instr :=
  match args with
  | [] =>
    if mnemonic = "ups.flush".toList then some (.upsFlush ch)
    else if mnemonic = "dsm.stop".toList then some (.dsmStop ch)
    else if mnemonic = "dec.stop".toList then some (.decStop ch)
    else none
  | [x] =>
    if mnemonic = "ups.start".toList then
      (if x = "interp".toList then some (.upsStart ch .interp)
      else if x = "extrap".toList then some (.upsStart ch .extrap) else none)
    else if mnemonic = "ups.push".toList then (parseNum x).map (.upsPush ch)
    else if mnemonic = "dsm.start".toList then
      (if x = ['1'] then some (.dsmStart ch .first)
      else if x = ['2'] then some (.dsmStart ch .second) else none)
    else if mnemonic = "dsm.step".toList then (parseNum x).map (.dsmStep ch)
    else if mnemonic = "dec.step".toList then
      (if x = ['0'] then some (.decStep ch false)
      else if x = ['1'] then some (.decStep ch true) else none)
    else none
  | [x, y, z] =>
    if mnemonic = "dec.start".toList then
      match parseNum x, parseNum y, parseNum z with
      | some k1, some k2, some k3 => some (.decStart ch k1 k2 k3)
      | _, _, _ => none
    else none
  | _ => none

/-- A command line: a command of the table, or `.byte <hex>`, which gives any byte on a port the
listing's reader names (the syntax has no place for it) with the lanes 0. -/
def parseTransaction (bytePort : UnitName) (ch : Nat) (mnemonic : List Char) (args : List (List Char)) :
    Option Transaction :=
  if mnemonic = ".byte".toList then
    match args with
    | [x] => (parseByte x).map fun b =>
        { channel := ch, port := bytePort, cmd := b, d0 := 0, d1 := 0, d2 := 0 }
    | _ => none
  else (parseCommand ch mnemonic args).map encode

/-- The channel of the optional prefix `ch<n>:` at the head of a line and the words after it; channel 0
without one (R85). -/
def channelPrefix (ws : List (List Char)) : Option (Nat × List (List Char)) :=
  match ws with
  | ('c' :: 'h' :: w) :: rest =>
    match splitAtChar ':' w with
    | some (n, []) => (parseNat 10 n).map fun ch => (ch, rest)
    | some (n, more) => (parseNat 10 n).map fun ch => (ch, more :: rest)
    | none => none
  | ws => some (0, ws)

/-- One line: no transaction for an empty or comment line, one for a command line, `none` for a line
that is not of the syntax (R85). -/
def assembleLine (bytePort : UnitName) (line : List Char) : Option (List Transaction) :=
  match wordsOf line with
  | [] => some []
  | ws =>
    match channelPrefix ws with
    | some (ch, mnemonic :: args) => (parseTransaction bytePort ch mnemonic args).map fun t => [t]
    | _ => none

/-- An item of a listing: a line, or `xN{ … }` around lines (R87). -/
inductive ListingItem where
  | line (text : List Char)
  | times (n : Nat) (texts : List (List Char))
  deriving DecidableEq, Repr

/-- `xN{ ... }` "repeats the enclosed lines N times"; it is shorthand, not a command (R87). -/
def expandListing (l : List ListingItem) : List (List Char) :=
  l.flatMap fun
    | .line t => [t]
    | .times n ts => (List.replicate n ts).flatten

/-- The lines' transactions, one after the other; `none` if a line is not of the syntax. -/
def assembleLines (bytePort : UnitName) : List (List Char) → Option (List Transaction)
  | [] => some []
  | l :: ls =>
    match assembleLine bytePort l, assembleLines bytePort ls with
    | some a, some b => some (a ++ b)
    | _, _ => none

/-- A listing's transactions (R85 to R87). -/
def assemble (bytePort : UnitName) (l : List ListingItem) : Option (List Transaction) :=
  assembleLines bytePort (expandListing l)

end Sys2Proof.Machine
end

