-- ==== Sys2Proof/Machine/Reference.lean ====
section
/-! DEFINITION. The reference software around the block (44_reference_software.md): FrequencyReducer, RMSEEvaluator, OffsetSearch. Host functions: they have no state and no command (00_scope.md R6). -/

namespace Sys2Proof.Machine

/-- The error conditions of the host functions: "local value-returning conditions" (R166). -/
inductive RefError where
  /-- `rmse` of sequences of different lengths (R166, 60_exceptions.md R196). -/
  | lengthMismatch
  /-- `rmse` of two empty sequences: refused, no value (R166). -/
  | emptySequences
  /-- `reduce_frequency` with `w < 1`: refused, no value (R164). -/
  | badWindow
  /-- `search_best_offset` with `max_offset < 1`: refused (R168). -/
  | emptyRange
  /-- `search_best_offset` with nothing to compare, `n < 1`: refused (R168). -/
  | nothingToCompare
  /-- `search_best_offset` with `k` outside `(0,1)`, which no DEC pass can be started with. Log entry 13. -/
  | badCoefficient
  deriving DecidableEq, Repr

/-- The order of polarities in a rewritten window (R162): `FR_ORDER`, `LOW_FIRST` by default. -/
inductive FrOrder where
  | lowFirst
  | highFirst
  deriving DecidableEq, Repr

/-- How many low pulses are in a list. -/
def countLow (p : List Pulse) : Nat := p.count false

/-- Pads with low pulses to the next multiple of `w` (R161). -/
def padLow (p : List Pulse) (w : Nat) : List Pulse :=
  if p.length % w = 0 then p else p ++ List.replicate (w - p.length % w) false

/-- Window `j` of `w` bits of a padded stream (R160). -/
def window (p : List Pulse) (w j : Nat) : List Pulse := (p.drop (w * j)).take w

/-- Rewrites one window: its `c` low bits and its high bits regrouped (R162). -/
def rewriteWindow (o : FrOrder) (win : List Pulse) : List Pulse :=
  let lows := List.replicate (countLow win) false
  let highs := List.replicate (win.length - countLow win) true
  match o with
  | .lowFirst => lows ++ highs
  | .highFirst => highs ++ lows

/-- `reduce_frequency` for a window size already known to be at least 1 (R160). -/
def regroup (p : List Pulse) (w : Nat) (o : FrOrder) : List Pulse :=
  let padded := padLow p w
  (List.range (padded.length / w)).flatMap fun j => rewriteWindow o (window padded w j)

/-- `reduce_frequency(P, w)` (R160 to R164); the default window is 32 (00_scope.md R15). -/
def reduceFrequency (p : List Pulse) (w : Int := 32) (o : FrOrder := .lowFirst) : Except RefError (List Pulse) :=
  if w < 1 then .error .badWindow else .ok (regroup p w.toNat o)

/-- The mean of the squared differences, for two sequences of one non-zero length (R165). -/
def meanSquare (a b : List Num) : Num :=
  (List.zipWith (fun x y => (x - y) * (x - y)) a b).sum / (a.length : Num)

/-- `mse(a, b)`: strict on lengths, refused on empty sequences (R165, R166). -/
def mse (a b : List Num) : Except RefError Num :=
  if a.length ≠ b.length then .error .lengthMismatch
  else if a.length = 0 then .error .emptySequences
  else .ok (meanSquare a b)

/-- `r` is `rmse(a, b)`: the non-negative real whose square is `mse(a, b)`. "A non-negative real that
need not be rational" (R165), so it is a relation; log entry 12. -/
def IsRmse (a b : List Num) (r : Real) : Prop :=
  ∃ q : Num, mse a b = .ok q ∧ 0 ≤ r ∧ r * r = (q : Real)

/-- `rotl(P, o)`: `rotl(P, o)[i] = P[(i + o) mod M]` (R167). -/
def rotl (p : List Pulse) (o : Nat) : List Pulse :=
  (List.range p.length).map fun i => p.getD ((i + o) % p.length) false

/-- The error of one reconstruction, as its mean square: both sequences truncated to the shorter, which is
the caller's job, then compared (R166, R168). -/
def truncatedMse (reconstructed original : List Num) : Num :=
  let n := min reconstructed.length original.length
  meanSquare (reconstructed.take n) (original.take n)

/-- The error at one offset: rotate, demodulate, truncate, compare (R168). -/
def offsetMse (p : List Pulse) (original : List Num) (k : Num) (o : Nat) : Num :=
  truncatedMse (demodulate (rotl p o) k) original

/-- Keeps the best offset so far unless the new one is strictly better: a tie goes to the smallest
(R168). -/
def betterOffset (best : Nat × Num) (o : Nat) (e : Num) : Nat × Num := if e < best.2 then (o, e) else best

/-- The least of the errors `err 0 .. err n` with its offset, tried in increasing order (R168). -/
def leastErrorUpTo (err : Nat → Num) : Nat → Nat × Num
  | 0 => (0, err 0)
  | n + 1 => betterOffset (leastErrorUpTo err n) (n + 1) (err (n + 1))

/-- Why a search is refused, if it is (R168; log entry 13 for the coefficient and the order). -/
def searchRefusal (p : List Pulse) (original : List Num) (maxOffset : Int) (k : Num) : Option RefError :=
  if maxOffset < 1 then some .emptyRange
  else if !coefficientLegal k then some .badCoefficient
  else if min (p.length / Config.oversample) original.length = 0 then some .nothingToCompare
  else none

/-- `search_best_offset(P, original, max_offset)` with coefficient `k`, over `0 <= o < max_offset`
(R168): the offset and its error, given as the mean square whose root `rmse` is (log entry 12). The value
alone; the DEC commands that produce the reconstructions are `searchProgram`. -/
def searchBestOffset (p : List Pulse) (original : List Num) (maxOffset : Int) (k : Num) :
    Except RefError (Nat × Num) :=
  match searchRefusal p original maxOffset k with
  | some e => .error e
  | none => .ok (leastErrorUpTo (offsetMse p original k) (maxOffset.toNat - 1))

/-- `(o, r)` is what `search_best_offset` returns, its error as the real `rmse` (R168; log entry 12). -/
def IsSearchResult (p : List Pulse) (original : List Num) (maxOffset : Int) (k : Num) (o : Nat) (r : Real) : Prop :=
  ∃ q : Num, searchBestOffset p original maxOffset k = .ok (o, q) ∧ 0 ≤ r ∧ r * r = (q : Real)

end Sys2Proof.Machine
end

