-- ==== Sys2Proof/Machine/Search.lean ====
section
/-! DEFINITION. The offset search as the host runs it on the block: "the DEC commands that `search_best_offset` issues" (44_reference_software.md R171), one DEC pass for each offset, and the result from what the DEC port emitted. -/

namespace Sys2Proof.Machine

/-- The passes for the offsets `0 .. n - 1`, one after the other: `DEMODULATE rotl(P, o), k` for each, in
increasing order (R168, 30_encoding.md R92). -/
def offsetPasses (ch : Nat) (p : List Pulse) (k : Num) (n : Nat) : List Instr :=
  (List.range n).flatMap fun o => demodulateProgram ch (rotl p o) k k k

/-- All the commands `search_best_offset` issues, on the DEC unit of channel `ch` (R168, R171): each offset's
demodulation "is a separate DEC pass from zero state" (R169). A refused search issues none. Log entry 17. -/
def searchProgram (ch : Nat) (p : List Pulse) (original : List Num) (maxOffset : Int) (k : Num) : List Instr :=
  match searchRefusal p original maxOffset k with
  | some _ => []
  | none => offsetPasses ch p k maxOffset.toNat

/-- The Nums of an emitted list. -/
def numsIn (l : List Datum) : List Num :=
  l.filterMap fun
    | .num v => some v
    | .pulse _ => none

/-- The reconstructed Signal of pass `o` in the joined output of passes over `m` pulses each: every pass emits
`floor(m / 32)` samples (43_demodulator.md R144). -/
def passOutput (out : List Num) (m o : Nat) : List Num :=
  (out.drop (m / Config.oversample * o)).take (m / Config.oversample)

/-- `search_best_offset` as the host computes it from the responses its own DEC commands got on channel `ch`
(R168). The commands' effect on `dec.*` is the block's. -/
def searchFromResponses (ch : Nat) (p : List Pulse) (original : List Num) (maxOffset : Int) (k : Num)
    (rs : List Response) : Except RefError (Nat × Num) :=
  match searchRefusal p original maxOffset k with
  | some e => .error e
  | none =>
    let out := numsIn (outputOf ch .dec rs)
    .ok (leastErrorUpTo (fun o => truncatedMse (passOutput out p.length o) original) (maxOffset.toNat - 1))

end Sys2Proof.Machine
end

