-- ==== Sys2Proof/Safety.lean ====
section
/-! DEFINITION. What counts as a safe state and a safe run, in the terms the statements use: the invariants of 10_state.md R42, hosts that address existing channels, runs without error responses, states that differ only in what no one can observe. -/

namespace Sys2Proof.Machine

/-- R42 (b), (c), and R25: "When `ups.valid = 0` its value is 0". -/
def Ups.Inv (u : Ups) : Prop :=
  (u.valid = true → u.run = true) ∧ (u.valid = false → u.prev = 0)

/-- R42 (d), (g). -/
def Dsm.Inv (d : Dsm) : Prop :=
  (d.run = false → d.error = 0 ∧ d.integrator = 0 ∧ d.integrator2 = 0)
  ∧ (d.run = true → d.order = .first → d.integrator = 0 ∧ d.integrator2 = 0)
  ∧ (d.run = true → d.order = .second → d.error = 0)

/-- R42 (a), (e), (f). -/
def Dec.Inv (d : Dec) : Prop :=
  d.cnt ≤ 31
  ∧ (d.run = false → d.y1 = 0 ∧ d.y2 = 0 ∧ d.y3 = 0 ∧ d.period = 0 ∧ d.cnt = 0)
  ∧ (d.run = true → (0 < d.k1 ∧ d.k1 < 1) ∧ (0 < d.k2 ∧ d.k2 < 1) ∧ (0 < d.k3 ∧ d.k3 < 1))

/-- R42 (h), R147: the boundedness of the decimator. -/
def Dec.Bounded (d : Dec) : Prop :=
  |d.y1| < Config.fullscale ∧ |d.y2| < Config.fullscale ∧ |d.y3| < Config.fullscale
  ∧ (0 < d.cnt → |d.period| < (d.cnt : Num) * Config.fullscale)
  ∧ (d.cnt = 0 → d.period = 0)

/-- R42 (a) to (g) of one channel. -/
def Channel.Inv (c : Channel) : Prop := c.ups.Inv ∧ c.dsm.Inv ∧ c.dec.Inv

/-- R20 and R42 (a) to (g): `NCHAN` channels, each with its invariant. -/
def State.Inv (s : State) : Prop :=
  s.channels.length = Config.nchan ∧ ∀ c ∈ s.channels, c.Inv

/-- R42 (h) of every channel. -/
def State.Bounded (s : State) : Prop := ∀ c ∈ s.channels, c.dec.Bounded

/-- The host uses only ports that exist: every transaction it has issued names a channel of the block. -/
def Input.addressed : Input → Bool
  | .command t => t.wellFormed
  | .reset => true

/-- Every input still to perform is addressed to a port that exists. -/
def State.Addressed (s : State) : Prop := ∀ i ∈ s.inputs, i.addressed = true

/-- No error was answered: the ghost flag of 60_exceptions.md R187, kept outside the block's state. -/
def State.NoErrors (s : State) : Prop := ∀ r ∈ s.responses, r.status = .ok

/-- A unit's registers with the latched options forgotten where they are unobservable: while its `run`
flag is 0 (R23, R27, R32). -/
def Ups.observable (u : Ups) : Ups := if u.run then u else { u with mode := .interp }

/-- As `Ups.observable`, for `dsm.order` (R27). -/
def Dsm.observable (d : Dsm) : Dsm := if d.run then d else { d with order := .first }

/-- As `Ups.observable`, for `dec.k1`, `dec.k2`, `dec.k3` (R32). -/
def Dec.observable (d : Dec) : Dec := if d.run then d else { d with k1 := 0, k2 := 0, k3 := 0 }

/-- A channel with its unobservable options forgotten. -/
def Channel.observable (c : Channel) : Channel :=
  { ups := c.ups.observable, dsm := c.dsm.observable, dec := c.dec.observable }

/-- Two states that agree but for latched options of idle units. -/
def State.SameObservable (s t : State) : Prop :=
  s.channels.map Channel.observable = t.channels.map Channel.observable
  ∧ s.inputs = t.inputs ∧ s.responses = t.responses

/-- Two outcomes of one kind, with states that agree but for latched options of idle units. -/
def SameOutcome : Host.Outcome State Fault Refusal → Host.Outcome State Fault Refusal → Prop
  | .next s, .next t => s.SameObservable t
  | .fault a, .fault b => a = b
  | .refused a, .refused b => a = b
  | _, _ => False

/-- The data and stop commands whose unit has no pass open in channel `c` (R183). -/
def idleFor (i : Instr) (c : Channel) : Prop :=
  match i with
  | .upsPush _ _ => c.ups.run = false
  | .upsFlush _ => c.ups.run = false
  | .dsmStep _ _ => c.dsm.run = false
  | .dsmStop _ => c.dsm.run = false
  | .decStep _ _ => c.dec.run = false
  | .decStop _ => c.dec.run = false
  | _ => False

/-- No unit of the channel has a pass open. -/
def Channel.idle (c : Channel) : Prop := c.ups.run = false ∧ c.dsm.run = false ∧ c.dec.run = false

/-- The responses of one port, in order (20_memory.md R53). -/
def responsesOf (ch : Nat) (u : UnitName) (s : State) : List Response :=
  s.responses.filter fun r => r.channel == ch && r.unit == u

end Sys2Proof.Machine
end

