-- ==== Sys2Proof/Certificates/Slice0/Obligations.lean ====
section
/-! DEFINITION. The statements for the provers, each formalising the rules of spec/ its docstring names. -/

open Sys2Proof Sys2Proof.Machine

/-! Encoding -/

/-- R71, R77, R83. For every command, decoding what the encoder puts on the port gives the command back,
every operand at every value. -/
def Obligations.DecodeOfEncodeIsTheCommand : Prop :=
  ∀ i : Instr, decode (encode i) = .ok i

/-- R77, R83. A transaction that decodes to a command has that command's channel, port and byte, and
carries its operands in the lanes R77 names. -/
def Obligations.DecodedTransactionIsTheEncoding : Prop :=
  ∀ (t : Transaction) (i : Instr), decode t = .ok i →
    t.channel = i.channel ∧ t.port = i.unit ∧ t.cmd = encodeByte i
    ∧ match i with
      | .upsPush _ v => t.d0 = v
      | .dsmStep _ x => t.d0 = x
      | .decStart _ k1 k2 k3 => t.d0 = k1 ∧ t.d1 = k2 ∧ t.d2 = k3
      | _ => True

/-- R83: "Lanes a command does not use are ignored". -/
def Obligations.UnusedLanesAreIgnored : Prop :=
  ∀ (t : Transaction) (i : Instr) (a b c : Sys2Proof.Num), decode t = .ok i →
    match i with
    | .upsPush _ _ => decode { t with d1 := b, d2 := c } = .ok i
    | .dsmStep _ _ => decode { t with d1 := b, d2 := c } = .ok i
    | .decStart _ _ _ _ => True
    | _ => decode { t with d0 := a, d1 := b, d2 := c } = .ok i

/-- R80. Exactly the transactions with `unit = 0b00`, `op = 0b11`, `z != 0`, `a = 1` where it must be 0,
or another unit's port are illegal. The three commands whose `a` may be 1 are those of R76. -/
def Obligations.IllegalTransactionsAreTheReservedOnes : Prop :=
  ∀ t : Transaction, (∃ e, decode t = .error e) ↔
    (unitField t.cmd = 0b00#2 ∨ opField t.cmd = 0b11#2 ∨ zField t.cmd ≠ 0b000#3
      ∨ (argBit t.cmd = true
          ∧ ¬ (unitField t.cmd = 0b01#2 ∧ opField t.cmd = 0b00#2)
          ∧ ¬ (unitField t.cmd = 0b10#2 ∧ opField t.cmd = 0b00#2)
          ∧ ¬ (unitField t.cmd = 0b11#2 ∧ opField t.cmd = 0b01#2))
      ∨ unitField t.cmd ≠ unitCode t.port)

/-- R77: no byte is selected by two rows, and 12 of the 256 byte values are defined. -/
def Obligations.OpcodeMapIsUnambiguous : Prop :=
  (∀ c : Byte, (opcodeMap.filter (rowSelects c)).length ≤ 1)
  ∧ ((List.range 256).filter fun n => (mnemonicOf (BitVec.ofNat 8 n)).isSome).length = 12

/-- R77 with R78 and R79: what each of the 12 defined bytes, written out, decodes to on its own port with the
lanes it uses; every other byte is reserved on every port. -/
def Obligations.DefinedBytesDecodeAsTabled : Prop :=
  (∀ t : Transaction,
    t.cmd ∉ ([0x40, 0x41, 0x50, 0x60, 0x80, 0x81, 0x90, 0xA0, 0xC0, 0xD0, 0xD1, 0xE0] : List Byte) →
    decode t = .error .reservedByte)
  ∧ ∀ (ch : Nat) (x y z : Sys2Proof.Num),
    decode ⟨ch, .ups, 0b01000000#8, x, y, z⟩ = .ok (.upsStart ch .interp)
    ∧ decode ⟨ch, .ups, 0b01000001#8, x, y, z⟩ = .ok (.upsStart ch .extrap)
    ∧ decode ⟨ch, .ups, 0b01010000#8, x, y, z⟩ = .ok (.upsPush ch x)
    ∧ decode ⟨ch, .ups, 0b01100000#8, x, y, z⟩ = .ok (.upsFlush ch)
    ∧ decode ⟨ch, .dsm, 0b10000000#8, x, y, z⟩ = .ok (.dsmStart ch .first)
    ∧ decode ⟨ch, .dsm, 0b10000001#8, x, y, z⟩ = .ok (.dsmStart ch .second)
    ∧ decode ⟨ch, .dsm, 0b10010000#8, x, y, z⟩ = .ok (.dsmStep ch x)
    ∧ decode ⟨ch, .dsm, 0b10100000#8, x, y, z⟩ = .ok (.dsmStop ch)
    ∧ decode ⟨ch, .dec, 0b11000000#8, x, y, z⟩ = .ok (.decStart ch x y z)
    ∧ decode ⟨ch, .dec, 0b11010000#8, x, y, z⟩ = .ok (.decStep ch false)
    ∧ decode ⟨ch, .dec, 0b11010001#8, x, y, z⟩ = .ok (.decStep ch true)
    ∧ decode ⟨ch, .dec, 0b11100000#8, x, y, z⟩ = .ok (.decStop ch)

/-- R85: each of the twelve command lines of the assembler's table (its `.byte` row apart, for which see
AssemblerByteLineGivesItsByte) gives the byte of its row and the lanes the row names; R86: the three forms of a
number. That a lane the table leaves as `-` is 0 is the model's choice (log entry 14). -/
def Obligations.AssemblerTableGivesItsBytes : Prop :=
  (["ups.start interp", "ups.start extrap", "ups.push -100", "ups.flush", "dsm.start 1", "dsm.start 2",
    "dsm.step 0.0253", "dsm.stop", "dec.start 1/2 1/4 1/8", "dec.step 0", "dec.step 1", "dec.stop"].map
      fun l => assembleLine .ups l.toList)
  = [ some [⟨0, .ups, 0x40, 0, 0, 0⟩], some [⟨0, .ups, 0x41, 0, 0, 0⟩], some [⟨0, .ups, 0x50, -100, 0, 0⟩],
      some [⟨0, .ups, 0x60, 0, 0, 0⟩], some [⟨0, .dsm, 0x80, 0, 0, 0⟩], some [⟨0, .dsm, 0x81, 0, 0, 0⟩],
      some [⟨0, .dsm, 0x90, 253 / 10000, 0, 0⟩], some [⟨0, .dsm, 0xA0, 0, 0, 0⟩],
      some [⟨0, .dec, 0xC0, 1 / 2, 1 / 4, 1 / 8⟩], some [⟨0, .dec, 0xD0, 0, 0, 0⟩],
      some [⟨0, .dec, 0xD1, 0, 0, 0⟩], some [⟨0, .dec, 0xE0, 0, 0, 0⟩] ]

/-- R85's row `.byte <hex>`: the byte given, also a reserved one, and here on the DSM port. The port, which the
row does not name, the lanes 0, which it leaves as `-`, and the forms of `<hex>` beyond the spec's own examples
(`ff` in lower case, `90` without `0x`) are the model's choice (log entry 14). -/
def Obligations.AssemblerByteLineGivesItsByte : Prop :=
  (["0x00", "0x91", "0xD2", "0xff", "90"].map fun h => assembleLine .dsm (".byte ".toList ++ h.toList))
  = [ some [⟨0, .dsm, 0x00, 0, 0, 0⟩], some [⟨0, .dsm, 0x91, 0, 0, 0⟩], some [⟨0, .dsm, 0xD2, 0, 0, 0⟩],
      some [⟨0, .dsm, 0xFF, 0, 0, 0⟩], some [⟨0, .dsm, 0x90, 0, 0, 0⟩] ]

/-! The step -/

/-- R16, R60, R66: "The command a unit performs is exactly the one on its port". When the next input is a
transaction that decodes to `i`, the step is `exec` of `i` at the state with that input taken. -/
def Obligations.StepExecutesTheDecodedCommand : Prop :=
  ∀ (s : State) (t : Transaction) (rest : List Input) (i : Instr),
    s.inputs = .command t :: rest → decode t = .ok i →
    step s = exec i { s with inputs := rest }

/-- R182: a byte that no row of R77 selects, or a byte whose `unit` field is not the unit of the port, is
answered `ERR_ILLEGAL`; no register is written and nothing emitted, whatever the lanes hold. -/
def Obligations.IllegalTransactionIsAnsweredErrIllegal : Prop :=
  ∀ (s : State) (t : Transaction) (rest : List Input) (c : Channel),
    s.inputs = .command t :: rest → s.channels[t.channel]? = some c →
    (∀ row ∈ opcodeMap, t.cmd &&& row.mask ≠ row.value) ∨ unitField t.cmd ≠ unitCode t.port →
    step s = .next { s with
      inputs := rest, responses := s.responses ++ [⟨t.channel, t.port, .errIllegal, []⟩] }

/-- R200: the reset event clears every unit of every channel and emits nothing. That the inputs after it
still follow is the model's choice (log entry 9). -/
def Obligations.ResetEventClearsEveryUnit : Prop :=
  ∀ (s : State) (rest : List Input), s.inputs = .reset :: rest →
    ∃ t, step s = .next t ∧ t.inputs = rest ∧ t.responses = s.responses
      ∧ t.channels.length = s.channels.length
      ∧ ∀ c ∈ t.channels,
        (c.ups.run = false ∧ c.ups.valid = false ∧ c.ups.prev = 0)
        ∧ (c.dsm.run = false ∧ c.dsm.error = 0 ∧ c.dsm.integrator = 0 ∧ c.dsm.integrator2 = 0)
        ∧ (c.dec.run = false ∧ c.dec.y1 = 0 ∧ c.dec.y2 = 0 ∧ c.dec.y3 = 0 ∧ c.dec.period = 0
            ∧ c.dec.cnt = 0)

/-- R43: the values the spec gives for reset, in every one of the `NCHAN` channels. The latched options
are left out: their reset value is unspecified. -/
def Obligations.ResetStateHasTheSpecifiedValues : Prop :=
  State.reset.channels.length = Config.nchan
  ∧ ∀ c ∈ State.reset.channels,
    (c.ups.run = false ∧ c.ups.valid = false ∧ c.ups.prev = 0)
    ∧ (c.dsm.run = false ∧ c.dsm.error = 0 ∧ c.dsm.integrator = 0 ∧ c.dsm.integrator2 = 0)
    ∧ (c.dec.run = false ∧ c.dec.y1 = 0 ∧ c.dec.y2 = 0 ∧ c.dec.y3 = 0 ∧ c.dec.period = 0
        ∧ c.dec.cnt = 0)

/-- The model's reading (log entry 6) of R67, "The block never initiates a transaction": with nothing
issued the step changes nothing. -/
def Obligations.NothingIssuedNothingChanges : Prop :=
  ∀ s : State, s.inputs = [] → step s = .next s

/-- The model's choice (log entry 8): a command on a channel the block does not have stops the run by
name. -/
def Obligations.NoSuchPortStopsByName : Prop :=
  ∀ (s : State) (i : Instr), s.channels[i.channel]? = none →
    exec i s = .fault (.noSuchPort i.channel i.unit)

/-! UPS -/

/-- R103: `UPS.START m`, in every state of the unit. -/
def Obligations.UpsStartOpensAFreshPass : Prop :=
  ∀ (s : State) (ch : Nat) (c : Channel) (m : UpsMode), s.channels[ch]? = some c →
    exec (.upsStart ch m) s = .next { s with
      channels := s.channels.set ch
        { c with ups := { run := true, mode := m, valid := false, prev := 0 } },
      responses := s.responses ++ [⟨ch, .ups, .ok, []⟩] }

/-- R104 with R105 written out: `UPS.PUSH v` idle, as the first push of a pass, and as a later one. -/
def Obligations.UpsPushEmitsThePreviousBlock : Prop :=
  ∀ (s : State) (ch : Nat) (c : Channel) (v : Sys2Proof.Num), s.channels[ch]? = some c →
    (c.ups.run = false → exec (.upsPush ch v) s = .next { s with
      responses := s.responses ++ [⟨ch, .ups, .errIdle, []⟩] })
    ∧ (c.ups.run = true → c.ups.valid = false → exec (.upsPush ch v) s = .next { s with
        channels := s.channels.set ch { c with ups := { c.ups with valid := true, prev := v } },
        responses := s.responses ++ [⟨ch, .ups, .ok, []⟩] })
    ∧ (c.ups.run = true → c.ups.valid = true → c.ups.mode = .interp →
        exec (.upsPush ch v) s = .next { s with
          channels := s.channels.set ch { c with ups := { c.ups with prev := v } },
          responses := s.responses ++ [⟨ch, .ups, .ok,
            (List.range 32).map fun (r : Nat) => .num (c.ups.prev + (v - c.ups.prev) * (r : Sys2Proof.Num) / 32)⟩] })
    ∧ (c.ups.run = true → c.ups.valid = true → c.ups.mode = .extrap →
        exec (.upsPush ch v) s = .next { s with
          channels := s.channels.set ch { c with ups := { c.ups with prev := v } },
          responses := s.responses ++ [⟨ch, .ups, .ok,
            List.replicate 32 (.num (3 * c.ups.prev - 2 * v))⟩] })

/-- R105: the block has 32 elements; under `INTERP` element 0 is `a` and element `r` is `a + (b-a)·r/32`,
equal to `a·(32-r)/32 + b·r/32`, and `b` itself is no element unless it equals `a`; under `EXTRAP` all are
`3·a - 2·b`. -/
def Obligations.BlockElementsAreTheFormulas : Prop :=
  ∀ (a b : Sys2Proof.Num) (m : UpsMode), (blk m a b).length = 32
    ∧ (blk .interp a b)[0]? = some a
    ∧ (a ≠ b → b ∉ blk .interp a b)
    ∧ ∀ r : Nat, r < 32 →
      (blk .interp a b)[r]? = some (a + (b - a) * (r : Sys2Proof.Num) / 32)
      ∧ a + (b - a) * (r : Sys2Proof.Num) / 32
          = a * (32 - (r : Sys2Proof.Num)) / 32 + b * (r : Sys2Proof.Num) / 32
      ∧ (blk .extrap a b)[r]? = some (3 * a - 2 * b)

/-- R106: `UPS.FLUSH` idle, with a sample held, and with none. -/
def Obligations.UpsFlushEmitsTheLastBlock : Prop :=
  ∀ (s : State) (ch : Nat) (c : Channel), s.channels[ch]? = some c →
    (c.ups.run = false → exec (.upsFlush ch) s = .next { s with
      responses := s.responses ++ [⟨ch, .ups, .errIdle, []⟩] })
    ∧ (c.ups.run = true → exec (.upsFlush ch) s = .next { s with
        channels := s.channels.set ch
          { c with ups := { c.ups with run := false, valid := false, prev := 0 } },
        responses := s.responses ++ [⟨ch, .ups, .ok,
          if c.ups.valid then List.replicate 32 (.num c.ups.prev) else []⟩] })

/-! DSM -/

/-- R122: `DSM.START n`, in every state of the unit. -/
def Obligations.DsmStartOpensAFreshPass : Prop :=
  ∀ (s : State) (ch : Nat) (c : Channel) (n : DsmOrder), s.channels[ch]? = some c →
    exec (.dsmStart ch n) s = .next { s with
      channels := s.channels.set ch
        { c with dsm := { run := true, order := n, error := 0, integrator := 0, integrator2 := 0 } },
      responses := s.responses ++ [⟨ch, .dsm, .ok, []⟩] }

/-- R124: `DSM.STEP x` in an order-1 pass; a tie `inp = 0` gives the high pulse. -/
def Obligations.DsmStepFirstOrder : Prop :=
  ∀ (s : State) (ch : Nat) (c : Channel) (x : Sys2Proof.Num), s.channels[ch]? = some c →
    c.dsm.run = true → c.dsm.order = .first →
    (0 ≤ x + c.dsm.error → exec (.dsmStep ch x) s = .next { s with
      channels := s.channels.set ch { c with dsm := { c.dsm with error := x + c.dsm.error - 32768 } },
      responses := s.responses ++ [⟨ch, .dsm, .ok, [.pulse true]⟩] })
    ∧ (x + c.dsm.error < 0 → exec (.dsmStep ch x) s = .next { s with
        channels := s.channels.set ch { c with dsm := { c.dsm with error := x + c.dsm.error + 32768 } },
        responses := s.responses ++ [⟨ch, .dsm, .ok, [.pulse false]⟩] })

/-- R125: `DSM.STEP x` in an order-2 pass, by its net effect; the decision is on `integrator2` before the
step, and a tie gives the low pulse. -/
def Obligations.DsmStepSecondOrder : Prop :=
  ∀ (s : State) (ch : Nat) (c : Channel) (x : Sys2Proof.Num), s.channels[ch]? = some c →
    c.dsm.run = true → c.dsm.order = .second →
    (0 < c.dsm.integrator2 → exec (.dsmStep ch x) s = .next { s with
      channels := s.channels.set ch { c with dsm := { c.dsm with
        integrator := c.dsm.integrator + x - 32768,
        integrator2 := c.dsm.integrator2 - 32768 + (c.dsm.integrator + x - 32768) } },
      responses := s.responses ++ [⟨ch, .dsm, .ok, [.pulse true]⟩] })
    ∧ (c.dsm.integrator2 ≤ 0 → exec (.dsmStep ch x) s = .next { s with
        channels := s.channels.set ch { c with dsm := { c.dsm with
          integrator := c.dsm.integrator + x + 32768,
          integrator2 := c.dsm.integrator2 + 32768 + (c.dsm.integrator + x + 32768) } },
        responses := s.responses ++ [⟨ch, .dsm, .ok, [.pulse false]⟩] })

/-- R126: `DSM.STOP`, idle and with a pass open; `dsm.order` keeps its value. -/
def Obligations.DsmStopClosesThePass : Prop :=
  ∀ (s : State) (ch : Nat) (c : Channel), s.channels[ch]? = some c →
    (c.dsm.run = false → exec (.dsmStop ch) s = .next { s with
      responses := s.responses ++ [⟨ch, .dsm, .errIdle, []⟩] })
    ∧ (c.dsm.run = true → exec (.dsmStop ch) s = .next { s with
        channels := s.channels.set ch { c with dsm := { c.dsm with
          run := false, error := 0, integrator := 0, integrator2 := 0 } },
        responses := s.responses ++ [⟨ch, .dsm, .ok, []⟩] })

/-! DEC -/

/-- R140: `DEC.START k1 k2 k3` in every state of the unit: with all coefficients strictly between 0 and 1 it
opens a fresh pass; otherwise it answers `ERR_PARAM` and writes nothing. -/
def Obligations.DecStartOpensAFreshPass : Prop :=
  ∀ (s : State) (ch : Nat) (c : Channel) (k1 k2 k3 : Sys2Proof.Num), s.channels[ch]? = some c →
    ((0 < k1 ∧ k1 < 1) ∧ (0 < k2 ∧ k2 < 1) ∧ (0 < k3 ∧ k3 < 1) →
      exec (.decStart ch k1 k2 k3) s = .next { s with
        channels := s.channels.set ch { c with dec :=
          { run := true, k1 := k1, k2 := k2, k3 := k3, y1 := 0, y2 := 0, y3 := 0, period := 0, cnt := 0 } },
        responses := s.responses ++ [⟨ch, .dec, .ok, []⟩] })
    ∧ (¬ ((0 < k1 ∧ k1 < 1) ∧ (0 < k2 ∧ k2 < 1) ∧ (0 < k3 ∧ k3 < 1)) →
      exec (.decStart ch k1 k2 k3) s = .next { s with
        responses := s.responses ++ [⟨ch, .dec, .errParam, []⟩] })

/-- R184: `ERR_PARAM` is the answer of `DEC.START` with a coefficient `<= 0` or `>= 1` and of no other
command; it writes no register, so an open pass continues and a closed unit stays closed. -/
def Obligations.ErrParamIsOnlyForCoefficients : Prop :=
  ∀ (s : State) (i : Instr) (c : Channel), s.channels[i.channel]? = some c →
    ∃ t r, exec i s = .next t ∧ t.responses = s.responses ++ [r]
      ∧ (r.status = .errParam ↔ match i with
          | .decStart _ k1 k2 k3 => k1 ≤ 0 ∨ 1 ≤ k1 ∨ k2 ≤ 0 ∨ 1 ≤ k2 ∨ k3 ≤ 0 ∨ 1 ≤ k3
          | _ => False)
      ∧ (r.status = .errParam → t.channels = s.channels ∧ r.emitted = [])

/-- R141: `DEC.STEP b` idle; and in an open pass: the three stages in order, then the block; on the step that
makes the count 32 the mean is emitted and `period` and `cnt` cleared. -/
def Obligations.DecStepFiltersAndDecimates : Prop :=
  ∀ (s : State) (ch : Nat) (c : Channel) (b : Pulse) (v y1 y2 y3 : Sys2Proof.Num),
    s.channels[ch]? = some c →
    v = (if b then 32768 else -32768) →
    y1 = c.dec.y1 * (1 - c.dec.k1) + c.dec.k1 * v →
    y2 = c.dec.y2 * (1 - c.dec.k2) + c.dec.k2 * y1 →
    y3 = c.dec.y3 * (1 - c.dec.k3) + c.dec.k3 * y2 →
    (c.dec.run = false → exec (.decStep ch b) s = .next { s with
      responses := s.responses ++ [⟨ch, .dec, .errIdle, []⟩] })
    ∧ (c.dec.run = true → c.dec.cnt + 1 ≠ 32 → exec (.decStep ch b) s = .next { s with
        channels := s.channels.set ch { c with dec := { c.dec with
          y1 := y1, y2 := y2, y3 := y3, period := c.dec.period + y3, cnt := c.dec.cnt + 1 } },
        responses := s.responses ++ [⟨ch, .dec, .ok, []⟩] })
    ∧ (c.dec.run = true → c.dec.cnt + 1 = 32 → exec (.decStep ch b) s = .next { s with
        channels := s.channels.set ch { c with dec := { c.dec with
          y1 := y1, y2 := y2, y3 := y3, period := 0, cnt := 0 } },
        responses := s.responses ++ [⟨ch, .dec, .ok, [.num ((c.dec.period + y3) / 32)]⟩] })

/-- R143: `DEC.STOP`, idle and with a pass open: a partial block is dropped, and the coefficients keep
their values. -/
def Obligations.DecStopDropsThePartialBlock : Prop :=
  ∀ (s : State) (ch : Nat) (c : Channel), s.channels[ch]? = some c →
    (c.dec.run = false → exec (.decStop ch) s = .next { s with
      responses := s.responses ++ [⟨ch, .dec, .errIdle, []⟩] })
    ∧ (c.dec.run = true → exec (.decStop ch) s = .next { s with
        channels := s.channels.set ch { c with dec := { c.dec with
          run := false, y1 := 0, y2 := 0, y3 := 0, period := 0, cnt := 0 } },
        responses := s.responses ++ [⟨ch, .dec, .ok, []⟩] })

/-! Errors and responses -/

/-- R183: every data and stop command with its unit's `run` flag 0 answers `ERR_IDLE`, writes no register
and emits nothing; no other command, so no START, answers it. -/
def Obligations.IdleUnitAnswersErrIdle : Prop :=
  ∀ (s : State) (i : Instr) (c : Channel), s.channels[i.channel]? = some c →
    (idleFor i c →
      exec i s = .next { s with responses := s.responses ++ [⟨i.channel, i.unit, .errIdle, []⟩] })
    ∧ (¬ idleFor i c → ∃ t r, exec i s = .next t ∧ t.responses = s.responses ++ [r]
        ∧ r.status ≠ .errIdle)

/-- R53, R73, R186: every transaction performed is answered by exactly one response, on its own port; an
emitted list has 0, 1 or 32 elements, Nums on the UPS and DEC ports and pulse bits on the DSM port; and a
status other than `OK` means that no register was written and nothing emitted. -/
def Obligations.OneResponseAndErrorsChangeNothing : Prop :=
  ∀ (s t : State) (x : Transaction) (rest : List Input),
    s.inputs = .command x :: rest → step s = .next t →
    ∃ r : Response, t.responses = s.responses ++ [r] ∧ r.channel = x.channel ∧ r.unit = x.port
      ∧ (r.emitted.length = 0 ∨ r.emitted.length = 1 ∨ r.emitted.length = 32)
      ∧ (∀ d ∈ r.emitted, match d with
          | .num _ => x.port = .ups ∨ x.port = .dec
          | .pulse _ => x.port = .dsm)
      ∧ (r.status ≠ .ok → t.channels = s.channels ∧ r.emitted = [])

/-- R181, R189: which status answers a transaction, in every case, and its code. -/
def Obligations.StatusIsDecidedAsTabled : Prop :=
  statusCode .ok = 0b00#2 ∧ statusCode .errIllegal = 0b01#2 ∧ statusCode .errIdle = 0b10#2
  ∧ statusCode .errParam = 0b11#2
  ∧ ∀ (s : State) (x : Transaction) (rest : List Input) (c : Channel),
    s.inputs = .command x :: rest → s.channels[x.channel]? = some c →
    ∃ t r, step s = .next t ∧ t.responses = s.responses ++ [r]
      ∧ match decode x with
        | .error _ => r.status = .errIllegal
        | .ok (.upsStart _ _) => r.status = .ok
        | .ok (.upsPush _ _) => r.status = if c.ups.run then .ok else .errIdle
        | .ok (.upsFlush _) => r.status = if c.ups.run then .ok else .errIdle
        | .ok (.dsmStart _ _) => r.status = .ok
        | .ok (.dsmStep _ _) => r.status = if c.dsm.run then .ok else .errIdle
        | .ok (.dsmStop _) => r.status = if c.dsm.run then .ok else .errIdle
        | .ok (.decStart _ k1 k2 k3) => r.status =
            if (0 < k1 ∧ k1 < 1) ∧ (0 < k2 ∧ k2 < 1) ∧ (0 < k3 ∧ k3 < 1) then .ok else .errParam
        | .ok (.decStep _ _) => r.status = if c.dec.run then .ok else .errIdle
        | .ok (.decStop _) => r.status = if c.dec.run then .ok else .errIdle

/-! Frames, independence, observability -/

/-- The frame of every command (R20, R61, and R62, which the spec marks as derived): the host's inputs, every other channel and the two other
units of its own channel are unchanged; earlier responses stand. -/
def Obligations.CommandTouchesOnlyItsOwnUnit : Prop :=
  ∀ (i : Instr) (s t : State), exec i s = .next t →
    t.inputs = s.inputs ∧ t.channels.length = s.channels.length
    ∧ (∃ r, t.responses = s.responses ++ [r])
    ∧ (∀ ch, ch ≠ i.channel → t.channels[ch]? = s.channels[ch]?)
    ∧ ∀ c c', s.channels[i.channel]? = some c → t.channels[i.channel]? = some c' →
      (i.unit ≠ .ups → c'.ups = c.ups) ∧ (i.unit ≠ .dsm → c'.dsm = c.dsm) ∧ (i.unit ≠ .dec → c'.dec = c.dec)

/-- The frame inside the unit (R28 to R30, R126, R143, R207): what each data or stop command leaves of its
own unit's registers. No command but a START writes a latched option, and `DSM.STEP` leaves the other
order's accumulators. -/
def Obligations.OptionsChangeOnlyAtStart : Prop :=
  ∀ (i : Instr) (s t : State) (c c' : Channel), exec i s = .next t →
    s.channels[i.channel]? = some c → t.channels[i.channel]? = some c' →
    match i with
    | .upsStart _ _ => True
    | .upsPush _ _ => c'.ups.run = c.ups.run ∧ c'.ups.mode = c.ups.mode
    | .upsFlush _ => c'.ups.mode = c.ups.mode
    | .dsmStart _ _ => True
    | .dsmStep _ _ => c'.dsm.run = c.dsm.run ∧ c'.dsm.order = c.dsm.order
        ∧ (c.dsm.order = .first → c'.dsm.integrator = c.dsm.integrator
            ∧ c'.dsm.integrator2 = c.dsm.integrator2)
        ∧ (c.dsm.order = .second → c'.dsm.error = c.dsm.error)
    | .dsmStop _ => c'.dsm.order = c.dsm.order
    | .decStart _ _ _ _ => True
    | .decStep _ _ => c'.dec.run = c.dec.run
        ∧ c'.dec.k1 = c.dec.k1 ∧ c'.dec.k2 = c.dec.k2 ∧ c'.dec.k3 = c.dec.k3
    | .decStop _ => c'.dec.k1 = c.dec.k1 ∧ c'.dec.k2 = c.dec.k2 ∧ c'.dec.k3 = c.dec.k3

/-- R61, and R62, which the spec marks as derived: commands to different channels, or to different units of one channel, commute: either
order gives the same registers and the same responses on every port. -/
def Obligations.IndependentCommandsCommute : Prop :=
  ∀ (i j : Instr) (s : State) (ci cj : Channel),
    (i.channel ≠ j.channel ∨ i.unit ≠ j.unit) →
    s.channels[i.channel]? = some ci → s.channels[j.channel]? = some cj →
    ∃ s1 s2 t1 t2, exec i s = .next s1 ∧ exec j s1 = .next s2
      ∧ exec j s = .next t1 ∧ exec i t1 = .next t2
      ∧ s2.channels = t2.channels ∧ s2.inputs = t2.inputs
      ∧ ∀ ch u, responsesOf ch u s2 = responsesOf ch u t2

/-- R43: the latched options of an idle unit are unobservable, as R23, R27 and R32 derive. Two states that differ in
nothing else step to outcomes that differ in nothing else; their responses are equal. -/
def Obligations.IdleOptionsAreUnobservable : Prop :=
  ∀ s t : State, s.SameObservable t → SameOutcome (step s) (step t)

/-- R201, in the sentence the spec marks as derived: a state with every pass closed is the reset state as far as any command can tell. -/
def Obligations.ClosedPassesLookLikeReset : Prop :=
  ∀ s : State, s.Inv → (∀ c ∈ s.channels, c.idle) → s.inputs = [] → s.responses = [] →
    s.SameObservable State.reset

/-! Invariants -/

/-- R42 (a) to (g), "consequences, not extra rules: a model proves them": every step keeps the invariant, from every state that has it. -/
def Obligations.StepKeepsTheInvariant : Prop :=
  ∀ s t : State, s.Inv → step s = .next t → t.Inv

/-- R42 (h) and R147, which the spec marks as derived: every step keeps the bounds of the decimator. -/
def Obligations.StepKeepsTheDecimatorBounded : Prop :=
  ∀ s t : State, s.Inv → s.Bounded → step s = .next t → t.Bounded

/-- The reset state has the invariants of R42, which the spec marks as derived. -/
def Obligations.ResetHasTheInvariants : Prop := State.reset.Inv ∧ State.reset.Bounded

/-- R147, which the spec marks as derived: "every emitted sample `r` satisfies `|r| < FS`", for each sample a DEC step emits. -/
def Obligations.EmittedDecSamplesAreBelowFullScale : Prop :=
  ∀ (s t : State) (ch : Nat) (b : Pulse) (rs : List Response), s.Inv → s.Bounded →
    exec (.decStep ch b) s = .next t → t.responses = s.responses ++ rs →
    ∀ r ∈ rs, ∀ v : Sys2Proof.Num, .num v ∈ r.emitted → |v| < 32768

/-- R67, R180: a host that uses only ports that exist is never stopped: every step is a next state, and
it stays so. -/
def Obligations.AddressedHostIsNeverStopped : Prop :=
  ∀ s : State, s.Inv → s.Addressed → ∃ t, step s = .next t ∧ t.Inv ∧ t.Addressed

/-! A pass computes the source's function -/

/-- R107, which the spec marks as derived: in every start state of the unit, `ups.start m; ups.push s0; …; ups.flush` answers `OK` to every
command, and the emitted lists make `upsample_m(S)`; the unit ends closed, and nothing else of the block
has changed. -/
def Obligations.UpsamplePassComputesUpsample : Prop :=
  ∀ (s : State) (ch : Nat) (c : Channel) (m : UpsMode) (signal : List Sys2Proof.Num) (rest : List Input),
    s.channels[ch]? = some c → s.inputs = issue (upsampleProgram ch m signal) ++ rest →
    ∃ rs, performSteps (signal.length + 2) s = .next
        { channels := s.channels.set ch
            { c with ups := { run := false, mode := m, valid := false, prev := 0 } },
          inputs := rest, responses := s.responses ++ rs }
      ∧ rs.length = signal.length + 2
      ∧ (∀ r ∈ rs, r.channel = ch ∧ r.unit = .ups ∧ r.status = .ok)
      ∧ outputOf ch .ups rs = (upsample m signal).map .num

/-- R132, which the spec marks as derived: in every start state of the unit, `dsm.start n; dsm.step x0; …; dsm.stop` answers `OK` to every
command, and the emitted bits are `modulate_order<n>(X)`. -/
def Obligations.ModulatePassComputesModulate : Prop :=
  ∀ (s : State) (ch : Nat) (c : Channel) (n : DsmOrder) (xs : List Sys2Proof.Num) (rest : List Input),
    s.channels[ch]? = some c → s.inputs = issue (modulateProgram ch n xs) ++ rest →
    ∃ rs, performSteps (xs.length + 2) s = .next
        { channels := s.channels.set ch
            { c with dsm := { run := false, order := n, error := 0, integrator := 0, integrator2 := 0 } },
          inputs := rest, responses := s.responses ++ rs }
      ∧ rs.length = xs.length + 2
      ∧ (∀ r ∈ rs, r.channel = ch ∧ r.unit = .dsm ∧ r.status = .ok)
      ∧ outputOf ch .dsm rs = (modulate n xs).map .pulse

/-- R145, which the spec marks as derived: in every start state of the unit, `dec.start k1 k2 k3; dec.step b0; …; dec.stop` with legal
coefficients answers `OK` to every command, and the emitted lists make `demodulate3(P, k1, k2, k3)`. -/
def Obligations.DemodulatePassComputesDemodulate : Prop :=
  ∀ (s : State) (ch : Nat) (c : Channel) (k1 k2 k3 : Sys2Proof.Num) (p : List Pulse) (rest : List Input),
    (0 < k1 ∧ k1 < 1) → (0 < k2 ∧ k2 < 1) → (0 < k3 ∧ k3 < 1) →
    s.channels[ch]? = some c → s.inputs = issue (demodulateProgram ch p k1 k2 k3) ++ rest →
    ∃ rs, performSteps (p.length + 2) s = .next
        { channels := s.channels.set ch { c with dec :=
            { run := false, k1 := k1, k2 := k2, k3 := k3, y1 := 0, y2 := 0, y3 := 0, period := 0,
              cnt := 0 } },
          inputs := rest, responses := s.responses ++ rs }
      ∧ rs.length = p.length + 2
      ∧ (∀ r ∈ rs, r.channel = ch ∧ r.unit = .dec ∧ r.status = .ok)
      ∧ outputOf ch .dec rs = (demodulate3 p k1 k2 k3).map .num

/-- R93: the round trip on one channel, the host carrying each unit's output to the next, answers `OK`
throughout, and the DEC output is `demodulate(modulate_n(upsample_m(S)), k)`. -/
def Obligations.RoundtripComputesRoundtrip : Prop :=
  ∀ (s : State) (ch : Nat) (c : Channel) (m : UpsMode) (n : DsmOrder) (k : Sys2Proof.Num)
    (signal : List Sys2Proof.Num),
    (0 < k ∧ k < 1) → s.channels[ch]? = some c →
    s.inputs = issue (roundtripProgram ch m n k signal) →
    ∃ t rs, performSteps (roundtripProgram ch m n k signal).length s = .next t
      ∧ t.responses = s.responses ++ rs ∧ (∀ r ∈ rs, r.status = .ok)
      ∧ outputOf ch .ups rs = (upsample m signal).map .num
      ∧ outputOf ch .dsm rs = (modulate n (upsample m signal)).map .pulse
      ∧ outputOf ch .dec rs = (roundtrip m n k signal).map .num

/-! Consequences the spec derives -/

/-- R102 for the length, and R108 (a), (b), (c), which the spec marks as derived: lengths, the sample at each block's start, the constant difference within a
block under `INTERP`, constant blocks under `EXTRAP`. -/
def Obligations.UpsampleBlockShape : Prop :=
  ∀ (signal : List Sys2Proof.Num) (m : UpsMode), (upsample m signal).length = 32 * signal.length
    ∧ ∀ (i : Nat) (a b : Sys2Proof.Num), signal[i]? = some a → signal[i + 1]? = some b →
      (upsample .interp signal)[32 * i]? = some a
      ∧ (∀ r, r < 31 → ∃ u v, (upsample .interp signal)[32 * i + r]? = some u
          ∧ (upsample .interp signal)[32 * i + r + 1]? = some v ∧ v - u = (b - a) / 32)
      ∧ (∀ r, r < 32 → (upsample .extrap signal)[32 * i + r]? = some (3 * a - 2 * b))

/-- R108 (d), (e), which the spec marks as derived: both strategies are linear, and a constant Signal is reproduced. -/
def Obligations.UpsampleIsLinear : Prop :=
  (∀ (m : UpsMode) (al be : Sys2Proof.Num) (s t : List Sys2Proof.Num), s.length = t.length →
    upsample m (List.zipWith (fun x y => al * x + be * y) s t)
      = List.zipWith (fun x y => al * x + be * y) (upsample m s) (upsample m t))
  ∧ ∀ (m : UpsMode) (n : Nat) (v : Sys2Proof.Num),
    upsample m (List.replicate n v) = List.replicate (32 * n) v

/-- R130 (a), which the spec marks as derived: the order-1 error stays in `[-FS, FS)` for inputs in `[-FS, FS]`. -/
def Obligations.FirstOrderErrorStaysBounded : Prop :=
  ∀ (s : State) (ch : Nat) (c : Channel) (x : Sys2Proof.Num), s.channels[ch]? = some c →
    c.dsm.run = true → c.dsm.order = .first →
    -32768 ≤ c.dsm.error → c.dsm.error < 32768 → -32768 ≤ x → x ≤ 32768 →
    ∃ t c', exec (.dsmStep ch x) s = .next t ∧ t.channels[ch]? = some c'
      ∧ -32768 ≤ c'.dsm.error ∧ c'.dsm.error < 32768

/-- R130 (b), which the spec marks as derived: after any steps of an order-1 pass, the error is the sum of the inputs less the sum of the
pulse values. -/
def Obligations.FirstOrderErrorIsInputsLessPulses : Prop :=
  ∀ (s : State) (ch : Nat) (c : Channel) (xs : List Sys2Proof.Num) (rest : List Input),
    s.channels[ch]? = some c → s.inputs = issue (.dsmStart ch .first :: xs.map (.dsmStep ch)) ++ rest →
    ∃ t c', performSteps (xs.length + 1) s = .next t ∧ t.channels[ch]? = some c'
      ∧ c'.dsm.error = xs.sum - ((modulateOrder1 xs).map pv).sum

/-- R131 (e), which the spec marks as derived: a constant full-scale input to order 2 answers pulses `0, 1, 1, …` and leaves, after
`n + 1` steps, `integrator = 65536` and `integrator2 = 65536 + 32768·(n + 1)`: no clamp, no bound. -/
def Obligations.SecondOrderGrowsAtFullScale : Prop :=
  ∀ (s : State) (ch : Nat) (c : Channel) (n : Nat) (rest : List Input), s.channels[ch]? = some c →
    s.inputs = issue (.dsmStart ch .second :: List.replicate (n + 1) (.dsmStep ch 32768)) ++ rest →
    ∃ t c' rs, performSteps (n + 2) s = .next t ∧ t.channels[ch]? = some c'
      ∧ c'.dsm.integrator = 65536
      ∧ c'.dsm.integrator2 = 65536 + 32768 * ((n : Sys2Proof.Num) + 1)
      ∧ t.responses = s.responses ++ rs ∧ (∀ r ∈ rs, r.status = .ok)
      ∧ outputOf ch .dsm rs = .pulse false :: List.replicate n (.pulse true)

/-- R131 (d), which the spec marks as derived: a constant zero input to order 2 gives pulses `0, 1, 1, 0` and returns to zero accumulators
every fourth step. -/
def Obligations.SecondOrderZeroInputHasPeriodFour : Prop :=
  ∀ (s : State) (ch : Nat) (c : Channel) (rest : List Input), s.channels[ch]? = some c →
    c.dsm.run = true → c.dsm.order = .second → c.dsm.integrator = 0 → c.dsm.integrator2 = 0 →
    s.inputs = issue (List.replicate 4 (.dsmStep ch 0)) ++ rest →
    ∃ rs, performSteps 4 s = .next { s with inputs := rest, responses := s.responses ++ rs }
      ∧ (∀ r ∈ rs, r.status = .ok)
      ∧ outputOf ch .dsm rs = [.pulse false, .pulse true, .pulse true, .pulse false]

/-- R144, and R142 and R149, which the spec marks as derived: the length, the effect of complementing every bit, and causality: sample `j` depends
on the first `32·(j+1)` pulses only. -/
def Obligations.DemodulateLengthSymmetryCausality : Prop :=
  ∀ (k1 k2 k3 : Sys2Proof.Num) (p q : List Pulse),
    (demodulate3 p k1 k2 k3).length = p.length / 32
    ∧ demodulate3 (p.map (!·)) k1 k2 k3 = (demodulate3 p k1 k2 k3).map (fun v => -v)
    ∧ ∀ j : Nat, 32 * (j + 1) ≤ p.length → 32 * (j + 1) ≤ q.length →
      p.take (32 * (j + 1)) = q.take (32 * (j + 1)) →
      (demodulate3 p k1 k2 k3)[j]? = (demodulate3 q k1 k2 k3)[j]?

/-- R148, which the spec marks as derived: the response of the cascade to a stream of ones, with equal coefficients. -/
def Obligations.StepResponseOfTheCascade : Prop :=
  ∀ (k : Sys2Proof.Num) (len n : Nat), n ≤ len →
    cascade k k k (List.replicate len true) n =
      (32768 * (1 - (1 - k) ^ n),
       32768 * (1 - (1 - k) ^ n * (1 + (n : Sys2Proof.Num) * k)),
       32768 * (1 - (1 - k) ^ n
         * (1 + (n : Sys2Proof.Num) * k + (n : Sys2Proof.Num) * ((n : Sys2Proof.Num) + 1) * k ^ 2 / 2)))

/-! Reference software -/

/-- R161, R164, and R163 (a), (c), which the spec marks as derived: `reduce_frequency` pads to the next multiple of `w`, keeps the count of low
pulses of every window, is idempotent, and refuses `w < 1`. -/
def Obligations.ReduceFrequencyKeepsDutyCycle : Prop :=
  (∀ (p : List Pulse) (w : Int) (o : FrOrder), w < 1 → reduceFrequency p w o = .error .badWindow)
  ∧ ∀ (p : List Pulse) (w : Nat) (o : FrOrder), 1 ≤ w →
    ∃ q, reduceFrequency p (w : Int) o = .ok q
      ∧ q.length = w * ((p.length + w - 1) / w)
      ∧ (∀ j, countLow (window q w j) = countLow (window (padLow p w) w j))
      ∧ reduceFrequency q (w : Int) o = .ok q

/-- R165, R166; the last clause is R165's remark from general knowledge (93_implementation_defined.md G2), and
that `rmse` is a relation is log entry 12: `mse` and `rmse` of a sequence with itself are 0, unequal lengths give `LengthMismatch`
and no number, and comparing roots is comparing mean squares. -/
def Obligations.RmseIsStrictAndMonotone : Prop :=
  (∀ a : List Sys2Proof.Num, a ≠ [] → mse a a = .ok 0 ∧ IsRmse a a 0)
  ∧ (∀ a b : List Sys2Proof.Num, a.length ≠ b.length →
      mse a b = .error .lengthMismatch ∧ ∀ r, ¬ IsRmse a b r)
  ∧ (∀ r, ¬ IsRmse [] [] r)
  ∧ ∀ (a b a' b' : List Sys2Proof.Num) (r r' : Real) (q q' : Sys2Proof.Num),
      IsRmse a b r → IsRmse a' b' r' → mse a b = .ok q → mse a' b' = .ok q' → (r < r' ↔ q < q')

/-- R168, and R169, which the spec marks as derived; the error is the mean square (log entry 12). The search answers an offset of its range with the least error, the smallest such offset,
never worse than offset 0. -/
def Obligations.OffsetSearchFindsTheLeastError : Prop :=
  ∀ (p : List Pulse) (original : List Sys2Proof.Num) (maxOffset : Nat) (k : Sys2Proof.Num),
    1 ≤ maxOffset → (0 < k ∧ k < 1) → 32 ≤ p.length → original ≠ [] →
    ∃ o e, searchBestOffset p original (maxOffset : Int) k = .ok (o, e)
      ∧ o < maxOffset ∧ e = offsetMse p original k o
      ∧ (∀ o', o' < maxOffset → e ≤ offsetMse p original k o')
      ∧ (∀ o', o' < o → e < offsetMse p original k o')
      ∧ e ≤ offsetMse p original k 0

/-- R171 with R168: in every start state of the DEC unit, the DEC commands the search issues answer `OK`, emit
each rotation's reconstruction in the order of the offsets, and leave the unit closed and zeroed with `k`
latched, an open pass abandoned; nothing else of the block has changed, and the host's result from the
responses is that of the search. That all passes run on one channel's DEC unit is the model's choice (log
entry 17). -/
def Obligations.SearchCommandsComputeTheSearch : Prop :=
  ∀ (s : State) (ch : Nat) (c : Channel) (p : List Pulse) (original : List Sys2Proof.Num) (maxOffset : Nat)
    (k : Sys2Proof.Num) (rest : List Input),
    1 ≤ maxOffset → (0 < k ∧ k < 1) → 32 ≤ p.length → original ≠ [] →
    s.channels[ch]? = some c →
    s.inputs = issue (searchProgram ch p original (maxOffset : Int) k) ++ rest →
    ∃ rs, performSteps (maxOffset * (p.length + 2)) s = .next
        { channels := s.channels.set ch { c with dec :=
            { run := false, k1 := k, k2 := k, k3 := k, y1 := 0, y2 := 0, y3 := 0, period := 0, cnt := 0 } },
          inputs := rest, responses := s.responses ++ rs }
      ∧ rs.length = maxOffset * (p.length + 2)
      ∧ (∀ r ∈ rs, r.channel = ch ∧ r.unit = .dec ∧ r.status = .ok)
      ∧ outputOf ch .dec rs
          = ((List.range maxOffset).flatMap fun o => demodulate (rotl p o) k).map .num
      ∧ searchFromResponses ch p original (maxOffset : Int) k rs
          = searchBestOffset p original (maxOffset : Int) k

/-- R168 and V6 of 93_implementation_defined.md: a search over an empty range, or with nothing to compare, is
refused, and returns no value. That a refused search issues no command, and that a `k` outside `(0,1)` is
refused, are the model's choice (log entries 13 and 17). -/
def Obligations.RefusedSearchHasNoValueAndNoCommand : Prop :=
  ∀ (ch : Nat) (p : List Pulse) (original : List Sys2Proof.Num) (maxOffset : Int) (k : Sys2Proof.Num),
    (maxOffset < 1 ∨ p.length < 32 ∨ original = [] ∨ k ≤ 0 ∨ 1 ≤ k) →
    (∃ e, searchBestOffset p original maxOffset k = .error e)
    ∧ (∀ rs, ∃ e, searchFromResponses ch p original maxOffset k rs = .error e)
    ∧ searchProgram ch p original maxOffset k = []
end

