-- ==== Sys2Proof/Laws/Decode.lean ====
section
/-! SUPPORT. Facts about the opcode map over all 256 bytes, each by evaluation. -/

namespace Sys2Proof.Laws

/-- A defined byte's fields (30_encoding.md R71, R74 to R76): its unit, `op` not reserved, `z` zero. -/
theorem mnemonicOf_fields (c : Byte) (n : Mnemonic) (h : mnemonicOf c = some n) :
    unitField c = unitCode (unitOf n) ∧ opField c ≠ 0b11#2 ∧ zField c = 0b000#3 := by
  have key : ∀ (k : Fin 256) (n : Mnemonic), mnemonicOf (BitVec.ofFin k) = some n →
      unitField (BitVec.ofFin k) = unitCode (unitOf n)
        ∧ opField (BitVec.ofFin k) ≠ 0b11#2 ∧ zField (BitVec.ofFin k) = 0b000#3 := by
    intro k n
    revert k
    cases n <;> decide +kernel
  exact key c.toFin n h

/-- The bytes of each command: one, or two where it has an argument bit (R77). -/
def bytesOf : Mnemonic → List Byte
  | .upsStart => [0x40, 0x41]
  | .upsPush => [0x50]
  | .upsFlush => [0x60]
  | .dsmStart => [0x80, 0x81]
  | .dsmStep => [0x90]
  | .dsmStop => [0xA0]
  | .decStart => [0xC0]
  | .decStep => [0xD0, 0xD1]
  | .decStop => [0xE0]

theorem mnemonicOf_bytes (c : Byte) (n : Mnemonic) : mnemonicOf c = some n ↔ c ∈ bytesOf n := by
  have key : ∀ (k : Fin 256) (n : Mnemonic),
      mnemonicOf (BitVec.ofFin k) = some n ↔ BitVec.ofFin k ∈ bytesOf n := by
    intro k n
    revert k
    cases n <;> decide +kernel
  exact key c.toFin n

end Sys2Proof.Laws
end

