-- ==== Sys2Proof/Laws/State.lean ====
section
/-! SUPPORT. One lemma per field per update of the state, each true by `rfl`; what a lookup of a channel gives after a write and after the reset event. -/

namespace Sys2Proof.Laws

open Sys2Proof.Machine

@[simp] theorem oversample_eq : Config.oversample = 32 := rfl
@[simp] theorem fullscale_eq : Config.fullscale = 32768 := rfl

variable (s : State) (ch : Nat) (u : UnitName) (c : Channel) (r : Reply) (is : List Input)

@[simp] theorem putChannel_channels : (s.putChannel ch c).channels = s.channels.set ch c := rfl
@[simp] theorem putChannel_inputs : (s.putChannel ch c).inputs = s.inputs := rfl
@[simp] theorem putChannel_responses : (s.putChannel ch c).responses = s.responses := rfl

@[simp] theorem respond_channels : (s.respond ch u r).channels = s.channels := rfl
@[simp] theorem respond_inputs : (s.respond ch u r).inputs = s.inputs := rfl
@[simp] theorem respond_responses :
    (s.respond ch u r).responses = s.responses ++ [⟨ch, u, r.status, r.emitted⟩] := rfl

@[simp] theorem withInputs_channels : (s.withInputs is).channels = s.channels := rfl
@[simp] theorem withInputs_inputs : (s.withInputs is).inputs = is := rfl
@[simp] theorem withInputs_responses : (s.withInputs is).responses = s.responses := rfl

@[simp] theorem resetEvent_channels :
    (resetEvent s).channels = s.channels.map fun _ => Channel.reset := rfl
@[simp] theorem resetEvent_inputs : (resetEvent s).inputs = s.inputs := rfl
@[simp] theorem resetEvent_responses : (resetEvent s).responses = s.responses := rfl

@[simp] theorem withFetchWord_inputs (n w : Nat) :
    (s.withFetchWord n w).inputs = .command (tableTransaction w) :: s.inputs := rfl
@[simp] theorem withFetchWord_channels (n w : Nat) : (s.withFetchWord n w).channels = s.channels := rfl
@[simp] theorem withFetchWord_responses (n w : Nat) : (s.withFetchWord n w).responses = s.responses := rfl

@[simp] theorem okReply_status (l : List Datum) : (okReply l).status = .ok := rfl
@[simp] theorem okReply_emitted (l : List Datum) : (okReply l).emitted = l := rfl
@[simp] theorem failWith_regs {ρ : Type} (x : ρ) (st : Status) : (failWith x st).1 = x := rfl
@[simp] theorem failWith_status {ρ : Type} (x : ρ) (st : Status) : (failWith x st).2.status = st := rfl
@[simp] theorem failWith_emitted {ρ : Type} (x : ρ) (st : Status) : (failWith x st).2.emitted = [] := rfl

/-- A channel written back as it was read leaves the state as it was. -/
theorem putChannel_same {s : State} {ch : Nat} {c : Channel} (h : s.channels[ch]? = some c) :
    s.putChannel ch c = s := by
  obtain ⟨hlt, hc⟩ := List.getElem?_eq_some_iff.mp h
  have hset : s.channels.set ch c = s.channels := hc ▸ List.set_getElem_self hlt
  rw [State.putChannel, hset]

/-- Reading the channel just written. -/
theorem getChannel_putChannel {s : State} {ch : Nat} {c : Channel} (c' : Channel)
    (h : s.channels[ch]? = some c) : (s.putChannel ch c').channels[ch]? = some c' := by
  have hlt := (List.getElem?_eq_some_iff.mp h).1
  simp [hlt]

/-- Reading another channel than the one just written. -/
theorem getChannel_putChannel_ne (s : State) {ch ch' : Nat} (c : Channel) (h : ch' ≠ ch) :
    (s.putChannel ch c).channels[ch']? = s.channels[ch']? := by
  simp [List.getElem?_set_ne h.symm]

/-- Two writes to one channel: the second stands. -/
theorem putChannel_putChannel (s : State) (ch : Nat) (c c' : Channel) :
    (s.putChannel ch c).putChannel ch c' = s.putChannel ch c' := by
  simp [State.putChannel]

end Sys2Proof.Laws
end

