-- ==== Sys2Proof/Laws/Exec.lean ====
section
/-! SUPPORT. What a command can do, said once: `exec` is one transition of one unit of one channel, given by `unitStep`; what a step can do, by the next input. -/

namespace Sys2Proof.Laws

open Sys2Proof.Machine

/-- What `onChannel` does where the channel exists. -/
theorem onChannel_of_some {s : State} {ch : Nat} {c : Channel} (u : UnitName)
    (f : Channel → Channel × Reply) (h : s.channels[ch]? = some c) :
    onChannel ch u s f = .next ((s.putChannel ch (f c).1).respond ch u (f c).2) := by
  simp only [onChannel, h]

/-- What `onChannel` does where it does not. -/
theorem onChannel_of_none {s : State} {ch : Nat} (u : UnitName) (f : Channel → Channel × Reply)
    (h : s.channels[ch]? = none) : onChannel ch u s f = .fault (.noSuchPort ch u) := by
  simp only [onChannel, h]

/-- Everything `onChannel` can have done when it answers a next state. -/
theorem onChannel_next {s t : State} {ch : Nat} {u : UnitName} {f : Channel → Channel × Reply}
    (h : onChannel ch u s f = .next t) :
    ∃ c, s.channels[ch]? = some c ∧ t = (s.putChannel ch (f c).1).respond ch u (f c).2 := by
  cases hc : s.channels[ch]? with
  | none => rw [onChannel_of_none u f hc] at h; cases h
  | some c => rw [onChannel_of_some u f hc] at h; cases h; exact ⟨c, rfl, rfl⟩

/-- The transition each command makes of its channel, and its reply. -/
def unitStep (i : Instr) (c : Channel) : Channel × Reply :=
  match i with
  | .upsStart _ m => ({ c with ups := (upsStartUnit m c.ups).1 }, (upsStartUnit m c.ups).2)
  | .upsPush _ v => ({ c with ups := (upsPushUnit v c.ups).1 }, (upsPushUnit v c.ups).2)
  | .upsFlush _ => ({ c with ups := (upsFlushUnit c.ups).1 }, (upsFlushUnit c.ups).2)
  | .dsmStart _ n => ({ c with dsm := (dsmStartUnit n c.dsm).1 }, (dsmStartUnit n c.dsm).2)
  | .dsmStep _ x => ({ c with dsm := (dsmStepUnit x c.dsm).1 }, (dsmStepUnit x c.dsm).2)
  | .dsmStop _ => ({ c with dsm := (dsmStopUnit c.dsm).1 }, (dsmStopUnit c.dsm).2)
  | .decStart _ k1 k2 k3 =>
    ({ c with dec := (decStartUnit k1 k2 k3 c.dec).1 }, (decStartUnit k1 k2 k3 c.dec).2)
  | .decStep _ b => ({ c with dec := (decStepUnit b c.dec).1 }, (decStepUnit b c.dec).2)
  | .decStop _ => ({ c with dec := (decStopUnit c.dec).1 }, (decStopUnit c.dec).2)

/-- `exec` is `onChannel` of `unitStep`, for every command. -/
theorem exec_eq_onChannel (i : Instr) (s : State) :
    exec i s = onChannel i.channel i.unit s (unitStep i) := by
  cases i <;> rfl

/-- `exec` where the channel exists. -/
theorem exec_of_some {s : State} {c : Channel} (i : Instr) (h : s.channels[i.channel]? = some c) :
    exec i s = .next ((s.putChannel i.channel (unitStep i c).1).respond i.channel i.unit (unitStep i c).2) := by
  rw [exec_eq_onChannel, onChannel_of_some _ _ h]

/-- Everything a command can have done when it answers a next state. -/
theorem exec_next {i : Instr} {s t : State} (h : exec i s = .next t) :
    ∃ c, s.channels[i.channel]? = some c ∧
      t = (s.putChannel i.channel (unitStep i c).1).respond i.channel i.unit (unitStep i c).2 :=
  onChannel_next (exec_eq_onChannel i s ▸ h)

/-- A command that takes an error: the state but for one more response. -/
theorem exec_of_failWith {s : State} {c : Channel} {i : Instr} {st : Status}
    (h : s.channels[i.channel]? = some c) (hf : unitStep i c = failWith c st) :
    exec i s = .next { s with responses := s.responses ++ [⟨i.channel, i.unit, st, []⟩] } := by
  rw [exec_of_some i h, hf, failWith_regs, putChannel_same h]
  rfl

/-- A command writes no register of another unit (20_memory.md R62). -/
theorem unitStep_frame (i : Instr) (c : Channel) :
    (i.unit ≠ .ups → (unitStep i c).1.ups = c.ups) ∧ (i.unit ≠ .dsm → (unitStep i c).1.dsm = c.dsm)
    ∧ (i.unit ≠ .dec → (unitStep i c).1.dec = c.dec) := by
  cases i <;> simp [Instr.unit, unitStep]

/-- The step by its next input. -/
theorem step_of_nil {s : State} (h : s.inputs = []) : step s = .next s := by
  simp only [step, performNext, h]

theorem step_of_cons {s : State} {i : Input} {rest : List Input} (h : s.inputs = i :: rest) :
    step s = performInput i (s.withInputs rest) := by
  simp only [step, performNext, h]

theorem performTransaction_of_ok {t : Transaction} {i : Instr} (s : State) (h : decode t = .ok i) :
    performTransaction t s = exec i s := by
  simp only [performTransaction, h]

theorem performTransaction_of_error {t : Transaction} {e : Illegal} (s : State)
    (h : decode t = .error e) : performTransaction t s = rejectIllegal t s := by
  simp only [performTransaction, h]

/-- A decoded command is on its own unit's port and its own channel. -/
theorem decode_port {t : Transaction} {i : Instr} (h : decode t = .ok i) :
    i.unit = t.port ∧ i.channel = t.channel := by
  unfold decode at h
  split at h
  · cases h
  · next n _ =>
    split at h
    · next hu => cases h; rw [← hu]; cases n <;> exact ⟨rfl, rfl⟩
    · cases h

/-- Performing a transaction is one transition of the unit on its port: the command's, or the error
response. -/
theorem performTransaction_eq (t : Transaction) (s : State) :
    performTransaction t s = onChannel t.channel t.port s fun c =>
      match decode t with
      | .ok i => unitStep i c
      | .error _ => failWith c .errIllegal := by
  cases h : decode t with
  | error e => rw [performTransaction_of_error s h]; rfl
  | ok i =>
    obtain ⟨hu, hc⟩ := decode_port h
    rw [performTransaction_of_ok s h, exec_eq_onChannel, hu, hc]

/-- Everything a step can have done when it answers a next state: waited, performed the transition of the
port the next transaction arrived on, or taken the reset event. -/
theorem step_next {s t : State} (h : step s = .next t) :
    (s.inputs = [] ∧ t = s)
    ∨ (∃ x rest c r, s.inputs = .command x :: rest ∧ s.channels[x.channel]? = some c
        ∧ r = (match decode x with
            | .ok i => unitStep i c
            | .error _ => failWith c .errIllegal)
        ∧ t = (((s.withInputs rest).putChannel x.channel r.1).respond x.channel x.port r.2))
    ∨ (∃ rest, s.inputs = .reset :: rest ∧ t = resetEvent (s.withInputs rest)) := by
  cases hi : s.inputs with
  | nil => rw [step_of_nil hi] at h; cases h; exact .inl ⟨rfl, rfl⟩
  | cons i rest =>
    rw [step_of_cons hi] at h
    cases i with
    | command x =>
      rw [performInput, performTransaction_eq] at h
      obtain ⟨c, hc, rfl⟩ := onChannel_next h
      exact .inr (.inl ⟨x, rest, c, _, rfl, hc, rfl, rfl⟩)
    | reset => cases h; exact .inr (.inr ⟨rest, rfl, rfl⟩)

end Sys2Proof.Laws
end

