-- ==== Sys2Proof/Laws/Units.lean ====
section
/-! SUPPORT. What each unit's transition does, case by case, and the unit-level forms of the invariants. -/

namespace Sys2Proof.Laws

open Sys2Proof.Machine

theorem pv_true : pv true = 32768 := rfl
theorem pv_false : pv false = -32768 := rfl

theorem abs_pv (b : Pulse) : |pv b| = 32768 := by cases b <;> simp [pv]

/-- The bit a comparator gives decides the pulse value. -/
theorem pv_comparatorOrder1_nonneg {x : Num} (h : 0 ≤ x) : comparatorOrder1 x = true := by
  simp [comparatorOrder1, h]

theorem pv_comparatorOrder1_neg {x : Num} (h : x < 0) : comparatorOrder1 x = false := by
  simp [comparatorOrder1, h]

theorem comparatorOrder2_pos {x : Num} (h : 0 < x) : comparatorOrder2 x = true := by
  simp [comparatorOrder2, h]

theorem comparatorOrder2_nonpos {x : Num} (h : x ≤ 0) : comparatorOrder2 x = false := by
  simp [comparatorOrder2, h]

@[simp] theorem blk_length (m : UpsMode) (a b : Num) : (blk m a b).length = 32 := by
  cases m <;> simp [blk]

theorem coefficientsLegal_iff (k1 k2 k3 : Num) :
    coefficientsLegal k1 k2 k3 = true ↔
      (0 < k1 ∧ k1 < 1) ∧ (0 < k2 ∧ k2 < 1) ∧ (0 < k3 ∧ k3 < 1) := by
  simp [coefficientsLegal, coefficientLegal, and_assoc]

theorem upsPushUnit_idle {u : Ups} (v : Num) (h : u.run = false) :
    upsPushUnit v u = failWith u .errIdle := by simp [upsPushUnit, h]

theorem upsPushUnit_open {u : Ups} (v : Num) (h : u.run = true) :
    upsPushUnit v u = ({ u with prev := v, valid := true },
      okReply (if u.valid then nums (blk u.mode u.prev v) else [])) := by simp [upsPushUnit, h]

theorem upsFlushUnit_idle {u : Ups} (h : u.run = false) : upsFlushUnit u = failWith u .errIdle := by
  simp [upsFlushUnit, h]

theorem upsFlushUnit_open {u : Ups} (h : u.run = true) :
    upsFlushUnit u = ({ u with valid := false, prev := 0, run := false },
      okReply (if u.valid then nums (List.replicate Config.oversample u.prev) else [])) := by
  simp [upsFlushUnit, h]

theorem dsmStepUnit_idle {d : Dsm} (x : Num) (h : d.run = false) :
    dsmStepUnit x d = failWith d .errIdle := by simp [dsmStepUnit, h]

theorem dsmStepUnit_first {d : Dsm} (x : Num) (h : d.run = true) (ho : d.order = .first) :
    dsmStepUnit x d = dsmStepOrder1 x d := by simp [dsmStepUnit, h, ho]

theorem dsmStepUnit_second {d : Dsm} (x : Num) (h : d.run = true) (ho : d.order = .second) :
    dsmStepUnit x d = dsmStepOrder2 x d := by simp [dsmStepUnit, h, ho]

theorem dsmStopUnit_idle {d : Dsm} (h : d.run = false) : dsmStopUnit d = failWith d .errIdle := by
  simp [dsmStopUnit, h]

theorem dsmStopUnit_open {d : Dsm} (h : d.run = true) :
    dsmStopUnit d = ({ d with error := 0, integrator := 0, integrator2 := 0, run := false },
      okReply []) := by simp [dsmStopUnit, h]

theorem decStartUnit_legal {k1 k2 k3 : Num} (d : Dec) (h : coefficientsLegal k1 k2 k3 = true) :
    decStartUnit k1 k2 k3 d =
      ({ run := true, k1 := k1, k2 := k2, k3 := k3, y1 := 0, y2 := 0, y3 := 0, period := 0, cnt := 0 },
        okReply []) := by simp [decStartUnit, h]

theorem decStartUnit_illegal {k1 k2 k3 : Num} (d : Dec) (h : coefficientsLegal k1 k2 k3 = false) :
    decStartUnit k1 k2 k3 d = failWith d .errParam := by simp [decStartUnit, h]

theorem decStepUnit_idle {d : Dec} (b : Pulse) (h : d.run = false) :
    decStepUnit b d = failWith d .errIdle := by simp [decStepUnit, h]

theorem decStepUnit_open {d : Dec} (b : Pulse) (h : d.run = true) :
    decStepUnit b d = decimate (filterPulse b d) := by simp [decStepUnit, h]

/-! `filterPulse` writes `y1`, `y2`, `y3` and nothing else. -/

@[simp] theorem filterPulse_run (b : Pulse) (d : Dec) : (filterPulse b d).run = d.run := rfl
@[simp] theorem filterPulse_k1 (b : Pulse) (d : Dec) : (filterPulse b d).k1 = d.k1 := rfl
@[simp] theorem filterPulse_k2 (b : Pulse) (d : Dec) : (filterPulse b d).k2 = d.k2 := rfl
@[simp] theorem filterPulse_k3 (b : Pulse) (d : Dec) : (filterPulse b d).k3 = d.k3 := rfl
@[simp] theorem filterPulse_period (b : Pulse) (d : Dec) : (filterPulse b d).period = d.period := rfl
@[simp] theorem filterPulse_cnt (b : Pulse) (d : Dec) : (filterPulse b d).cnt = d.cnt := rfl
@[simp] theorem filterPulse_y1 (b : Pulse) (d : Dec) :
    (filterPulse b d).y1 = leak d.k1 d.y1 (pv b) := rfl
@[simp] theorem filterPulse_y2 (b : Pulse) (d : Dec) :
    (filterPulse b d).y2 = leak d.k2 d.y2 (leak d.k1 d.y1 (pv b)) := rfl
@[simp] theorem filterPulse_y3 (b : Pulse) (d : Dec) :
    (filterPulse b d).y3 = leak d.k3 d.y3 (leak d.k2 d.y2 (leak d.k1 d.y1 (pv b))) := rfl

theorem decimate_complete {d : Dec} (h : d.cnt + 1 = 32) :
    decimate d = ({ d with period := 0, cnt := 0 }, okReply (nums [(d.period + d.y3) / 32])) := by
  have h' : blockComplete (d.cnt + 1) = true := beq_iff_eq.mpr h
  simp [decimate, h']

theorem decimate_partial {d : Dec} (h : d.cnt + 1 ≠ 32) :
    decimate d = ({ d with period := d.period + d.y3, cnt := d.cnt + 1 }, okReply []) := by
  have h' : blockComplete (d.cnt + 1) = false := beq_eq_false_iff_ne.mpr h
  simp [decimate, h']

theorem decStopUnit_idle {d : Dec} (h : d.run = false) : decStopUnit d = failWith d .errIdle := by
  simp [decStopUnit, h]

theorem decStopUnit_open {d : Dec} (h : d.run = true) :
    decStopUnit d = ({ d with y1 := 0, y2 := 0, y3 := 0, period := 0, cnt := 0, run := false },
      okReply []) := by simp [decStopUnit, h]

/-- One leaky integrator with `0 < k < 1` stays strictly inside full scale (43_demodulator.md R147). -/
theorem leak_bounded {k y v : Num} (hk : 0 < k ∧ k < 1) (hy : |y| < 32768) (hv : |v| ≤ 32768) :
    |leak k y v| < 32768 := by
  obtain ⟨h1, h2⟩ := abs_lt.mp hy
  obtain ⟨h3, h4⟩ := abs_le.mp hv
  have hq : 0 < 1 - k := sub_pos.mpr hk.2
  have hlow := mul_lt_mul_of_pos_right h1 hq
  have hhigh := mul_lt_mul_of_pos_right h2 hq
  have hlow' := mul_le_mul_of_nonneg_left h3 hk.1.le
  have hhigh' := mul_le_mul_of_nonneg_left h4 hk.1.le
  unfold leak
  rw [abs_lt]
  constructor <;> linarith

end Sys2Proof.Laws
end

