-- ==== Sys2Proof/Laws/Passes.lean ====
section
/-! SUPPORT. A run of the host's interface over a list of commands for one channel, as one fold over that channel. -/

namespace Sys2Proof.Laws

open Sys2Proof.Machine

/-- One step of a run that answers a next state. -/
theorem performSteps_succ {s t : State} (k : Nat) (h : step s = .next t) :
    performSteps (k + 1) s = performSteps k t := by
  simp only [performSteps, h]

/-- Two runs one after the other. -/
theorem performSteps_add {s t : State} (j k : Nat) (h : performSteps j s = .next t) :
    performSteps (j + k) s = performSteps k t := by
  induction j generalizing s with
  | zero => cases h; rw [Nat.zero_add]
  | succ j ih =>
    rw [performSteps] at h
    cases hs : step s with
    | next s' =>
      rw [hs] at h
      rw [Nat.add_right_comm, performSteps_succ _ hs]
      exact ih h
    | fault r => rw [hs] at h; cases h
    | refused r => rw [hs] at h; cases h

/-- The host's run of the machine is this run. -/
theorem performSteps_eq_core_run (k : Nat) (s : State) :
    performSteps k s = Host.Core.run ⟨State, Fault, Refusal, step, State.reset⟩ k s := by
  induction k generalizing s with
  | zero => rfl
  | succ k ih =>
    rw [performSteps, Host.Core.run]
    dsimp only
    cases step s with
    | next t => exact ih t
    | fault r => rfl
    | refused r => rfl

theorem issue_append (l l' : List Instr) : issue (l ++ l') = issue l ++ issue l' := by simp [issue]

theorem outputOf_append (ch : Nat) (u : UnitName) (l l' : List Response) :
    outputOf ch u (l ++ l') = outputOf ch u l ++ outputOf ch u l' := by simp [outputOf]

/-- The output of a port to which every response belongs. -/
theorem outputOf_eq_flatMap {ch : Nat} {u : UnitName} {l : List Response}
    (h : ∀ r ∈ l, r.channel = ch ∧ r.unit = u) : outputOf ch u l = l.flatMap (·.emitted) := by
  rw [outputOf, List.filter_eq_self.mpr fun r hr => by simp [h r hr]]

/-- What a list of commands makes of one channel, and their replies as responses. -/
def foldCommands : List Instr → Channel → Channel × List Response
  | [], c => (c, [])
  | i :: l, c =>
    let r := unitStep i c
    let more := foldCommands l r.1
    (more.1, ⟨i.channel, i.unit, r.2.status, r.2.emitted⟩ :: more.2)

theorem foldCommands_append (l l' : List Instr) (c : Channel) :
    foldCommands (l ++ l') c =
      ((foldCommands l' (foldCommands l c).1).1,
        (foldCommands l c).2 ++ (foldCommands l' (foldCommands l c).1).2) := by
  induction l generalizing c with
  | nil => rfl
  | cons i l ih => simp [foldCommands, ih]

/-- A run over commands issued to one channel that exists, decoded as they were encoded: the channel after
all of them, their responses, and nothing else. -/
theorem performSteps_issue (l : List Instr) (ch : Nat) (hl : ∀ i ∈ l, i.channel = ch)
    (hd : ∀ i ∈ l, decode (encode i) = .ok i) {s : State} {c : Channel} (rest : List Input)
    (hc : s.channels[ch]? = some c) (hi : s.inputs = issue l ++ rest) :
    performSteps l.length s = .next
      { channels := s.channels.set ch (foldCommands l c).1
        inputs := rest
        responses := s.responses ++ (foldCommands l c).2 } := by
  induction l generalizing s c with
  | nil =>
    have hrest : s.inputs = rest := by simpa [issue] using hi
    have hput := putChannel_same hc
    simp only [performSteps, foldCommands, List.append_nil, List.length_nil]
    rw [← hrest]
    exact congrArg _ hput.symm
  | cons i l ih =>
    have hcons : s.inputs = .command (encode i) :: (issue l ++ rest) := by simpa [issue] using hi
    have hch : i.channel = ch := hl i (List.mem_cons_self ..)
    have hc' : (s.withInputs (issue l ++ rest)).channels[i.channel]? = some c := by
      simpa [hch] using hc
    have hstep := step_of_cons hcons
    rw [performInput, performTransaction_of_ok _ (hd i (List.mem_cons_self ..)), exec_of_some i hc'] at hstep
    rw [List.length_cons, performSteps_succ _ hstep]
    have hlt := (List.getElem?_eq_some_iff.mp hc).1
    rw [ih (fun j hj => hl j (List.mem_cons_of_mem _ hj)) (fun j hj => hd j (List.mem_cons_of_mem _ hj))
      (c := (unitStep i c).1) (by simp [hch, hlt]) rfl]
    simp [foldCommands, hch]

theorem foldCommands_length (l : List Instr) (c : Channel) : (foldCommands l c).2.length = l.length := by
  induction l generalizing c with
  | nil => rfl
  | cons i l ih => simp [foldCommands, ih]

end Sys2Proof.Laws
end

