-- ==== Sys2Proof/Laws/PerInstr.lean ====
section
/-! SUPPORT. The per-instruction family `Fields`: the fields of each command's byte, as 30_encoding.md R71, R74, R75, R76 give them. -/

namespace Sys2Proof.Laws.Fields

/-- The byte of a command has its unit's code, its operation's code, `z = 0b000` and its argument bit, and
is the one its `opcode_table.json` row matches. -/
def Statement (i : Instr) : Prop :=
  unitField (encodeByte i) = unitCode i.unit ∧ opField (encodeByte i) = opCode i
  ∧ zField (encodeByte i) = 0b000#3 ∧ argBit (encodeByte i) = argOf i
  ∧ (mnemonicOf (encodeByte i)).map unitOf = some i.unit

/-- The fields of an assembled byte, whatever its unit, operation and argument. -/
theorem commandByte_fields (u : UnitName) (op : BitVec 2) (a : Bool) :
    unitField (commandByte u op a) = unitCode u ∧ opField (commandByte u op a) = op
    ∧ zField (commandByte u op a) = 0b000#3 ∧ argBit (commandByte u op a) = a := by
  revert op
  cases u <;> cases a <;> decide +kernel

/-- The statement from what is particular to one command: its byte's row in the map. -/
theorem of_row (i : Instr)
    (h : (mnemonicOf (commandByte i.unit (opCode i) (argOf i))).map unitOf = some i.unit) : Statement i :=
  have f := commandByte_fields i.unit (opCode i) (argOf i)
  ⟨f.1, f.2.1, f.2.2.1, f.2.2.2, h⟩

/-- The three commands with an argument bit, at both its values. -/
theorem rows_with_argument (a : Bool) :
    (mnemonicOf (commandByte .ups opStart a)).map unitOf = some .ups
    ∧ (mnemonicOf (commandByte .dsm opStart a)).map unitOf = some .dsm
    ∧ (mnemonicOf (commandByte .dec opData a)).map unitOf = some .dec := by
  cases a <;> decide +kernel

/-- The six commands without one. -/
theorem rows_without_argument :
    (mnemonicOf (commandByte .ups opData false)).map unitOf = some .ups
    ∧ (mnemonicOf (commandByte .ups opStop false)).map unitOf = some .ups
    ∧ (mnemonicOf (commandByte .dsm opData false)).map unitOf = some .dsm
    ∧ (mnemonicOf (commandByte .dsm opStop false)).map unitOf = some .dsm
    ∧ (mnemonicOf (commandByte .dec opStart false)).map unitOf = some .dec
    ∧ (mnemonicOf (commandByte .dec opStop false)).map unitOf = some .dec := by
  decide +kernel

theorem upsStart (ch : Nat) (m : UpsMode) : Statement (.upsStart ch m) :=
  of_row _ (rows_with_argument _).1
theorem upsPush (ch : Nat) (v : Num) : Statement (.upsPush ch v) :=
  of_row _ rows_without_argument.1
theorem upsFlush (ch : Nat) : Statement (.upsFlush ch) :=
  of_row _ rows_without_argument.2.1
theorem dsmStart (ch : Nat) (n : DsmOrder) : Statement (.dsmStart ch n) :=
  of_row _ (rows_with_argument _).2.1
theorem dsmStep (ch : Nat) (x : Num) : Statement (.dsmStep ch x) :=
  of_row _ rows_without_argument.2.2.1
theorem dsmStop (ch : Nat) : Statement (.dsmStop ch) :=
  of_row _ rows_without_argument.2.2.2.1
theorem decStart (ch : Nat) (k1 k2 k3 : Num) : Statement (.decStart ch k1 k2 k3) :=
  of_row _ rows_without_argument.2.2.2.2.1
theorem decStep (ch : Nat) (b : Pulse) : Statement (.decStep ch b) :=
  of_row _ (rows_with_argument _).2.2
theorem decStop (ch : Nat) : Statement (.decStop ch) :=
  of_row _ rows_without_argument.2.2.2.2.2

end Sys2Proof.Laws.Fields
end

