-- ==== Sys2Proof/Laws/Search.lean ====
section
/-! SUPPORT. Small facts about the offset search: lengths, the least error as a function of the errors, what is issued. -/

namespace Sys2Proof.Laws

open Sys2Proof.Machine

@[simp] theorem rotl_length (p : List Pulse) (o : Nat) : (rotl p o).length = p.length := by simp [rotl]

@[simp] theorem demodulate_length (p : List Pulse) (k : Num) : (demodulate p k).length = p.length / 32 := by
  simp [demodulate, demodulate3]

@[simp] theorem numsIn_map_num (l : List Num) : numsIn (l.map .num) = l := by
  simp [numsIn, List.filterMap_map]

/-- The least error depends only on the errors it tries. -/
theorem leastErrorUpTo_congr {e f : Nat → Num} {n : Nat} (h : ∀ o, o ≤ n → e o = f o) :
    leastErrorUpTo e n = leastErrorUpTo f n := by
  induction n with
  | zero => rw [leastErrorUpTo, leastErrorUpTo, h 0 (le_refl 0)]
  | succ n ih =>
    rw [leastErrorUpTo, leastErrorUpTo, ih fun o ho => h o (Nat.le_succ_of_le ho), h (n + 1) (le_refl _)]

/-- When a search is not refused. -/
theorem searchRefusal_eq_none {p : List Pulse} {original : List Num} {n : Nat} {k : Num} (hn : 1 ≤ n)
    (hk : 0 < k ∧ k < 1) (hp : 32 ≤ p.length) (ho : original ≠ []) :
    searchRefusal p original (n : Int) k = none := by
  have hn' : ¬ ((n : Int) < 1) := by omega
  have hk' : coefficientLegal k = true := decide_eq_true hk
  have hlen : ¬ (min (p.length / Config.oversample) original.length = 0) := by
    have := List.length_pos_iff.mpr ho
    rw [oversample_eq]
    omega
  simp [searchRefusal, hn', hk', hlen]

theorem offsetPasses_succ (ch : Nat) (p : List Pulse) (k : Num) (n : Nat) :
    offsetPasses ch p k (n + 1) = offsetPasses ch p k n ++ demodulateProgram ch (rotl p n) k k k := by
  simp [offsetPasses, List.range_succ]

end Sys2Proof.Laws
end

