-- ==== Sys2Proof/Tests/Slice0.lean ====
section
/-! SUPPORT. Tests: the WellFormed smoke, decoding of bytes written out from 30_encoding.md R77, one step of each command with the values of 95_test_vectors.md, and a witness for the hypotheses of every statement. -/

namespace Sys2Proof.Tests

open Sys2Proof.Machine

/-! Helpers. -/

/-- A state of one channel. -/
def stateOf (c : Channel) (is : List Input) : State := { channels := [c], inputs := is, responses := [] }

/-- The channel after one command. -/
def after (i : Instr) (c : Channel) : Option Channel :=
  match exec i (stateOf c []) with
  | .next t => t.channels[0]?
  | .fault _ => none
  | .refused _ => none

/-- The responses after one command. -/
def answers (i : Instr) (c : Channel) : List Response :=
  match exec i (stateOf c []) with
  | .next t => t.responses
  | .fault _ => []
  | .refused _ => []

/-- DEC after the 31st step of P3 (95_test_vectors.md section 3): one pulse short of a block. -/
def decAt31 : Dec :=
  { run := true, k1 := 1/2, k2 := 1/2, k3 := 1/2, y1 := 2147483647/65536, y2 := 4294967263/131072,
    y3 := 4294967015/131072, period := 30064771151/32768, cnt := 31 }

/-- DEC in the state of T-DEC-10: five low pulses consumed. -/
def decAt5 : Dec :=
  { run := true, k1 := 1/2, k2 := 1/2, k3 := 1/2, y1 := -31744, y2 := -29184, y3 := -25344,
    period := -77568, cnt := 5 }

/-- Every pass open: INTERP with 100 held, order 1 after `dsm.step 0` (T-DSM1-1), DEC one pulse short. -/
def openInterp : Channel :=
  { ups := ⟨true, .interp, true, 100⟩, dsm := ⟨true, .first, -32768, 0, 0⟩, dec := decAt31 }

/-- Every pass open: EXTRAP with 100 held, order 2 after `dsm.step 0` (T-DSM2-1), DEC of T-DEC-10. -/
def openExtrap : Channel :=
  { ups := ⟨true, .extrap, true, 100⟩, dsm := ⟨true, .second, 0, 32768, 65536⟩, dec := decAt5 }

/-- Every pass just started: nothing held, zero accumulators. -/
def justStarted : Channel :=
  { ups := ⟨true, .interp, false, 0⟩, dsm := ⟨true, .second, 0, 0, 0⟩,
    dec := { Dec.reset with run := true, k1 := 1/2, k2 := 1/4, k3 := 1/8 } }

/-- Every unit idle, with latched options that are not those of reset (R23, R27, R32). -/
def idleOther : Channel :=
  { ups := { Ups.reset with mode := .extrap }, dsm := { Dsm.reset with order := .second },
    dec := { Dec.reset with k1 := 1/2, k2 := 1/2, k3 := 1/2 } }

/-- A whole block with every channel the same. -/
def wholeState (c : Channel) (is : List Input) : State :=
  { channels := List.replicate Config.nchan c, inputs := is, responses := [] }

/-! WellFormed: the check on each kind of term, with a term it refuses. -/

theorem test_wellFormed_channel_zero : channelExists 0 = true := by simp [channelExists, Config.nchan]

theorem test_wellFormed_refuses_channel_nchan : channelExists Config.nchan = false := by
  simp [channelExists]

theorem test_wellFormed_refuses_instr : (Instr.upsFlush Config.nchan).wellFormed = false := by
  simp [Instr.wellFormed, Instr.channel, channelExists]

theorem test_wellFormed_refuses_transaction :
    (Transaction.mk Config.nchan .ups 0x60 0 0 0).wellFormed = false := by
  simp [Transaction.wellFormed, channelExists]

/-! Decoding: bytes written out bit by bit as `unit op z a` (R71, R74 to R79; T-ENC-1 to T-ENC-17). -/

theorem test_decode_ups :
    decode ⟨3, .ups, 0b01000001#8, 0, 0, 0⟩ = .ok (.upsStart 3 .extrap)
    ∧ decode ⟨3, .ups, 0b01010000#8, 7, 8, 9⟩ = .ok (.upsPush 3 7)
    ∧ decode ⟨3, .ups, 0b01100000#8, 0, 0, 0⟩ = .ok (.upsFlush 3) := ⟨rfl, rfl, rfl⟩

theorem test_decode_dsm :
    decode ⟨3, .dsm, 0b10000001#8, 0, 0, 0⟩ = .ok (.dsmStart 3 .second)
    ∧ decode ⟨3, .dsm, 0b10010000#8, 7, 8, 9⟩ = .ok (.dsmStep 3 7)
    ∧ decode ⟨3, .dsm, 0b10100000#8, 0, 0, 0⟩ = .ok (.dsmStop 3) := ⟨rfl, rfl, rfl⟩

theorem test_decode_dec :
    decode ⟨3, .dec, 0b11000000#8, 7, 8, 9⟩ = .ok (.decStart 3 7 8 9)
    ∧ decode ⟨3, .dec, 0b11010001#8, 0, 0, 0⟩ = .ok (.decStep 3 true)
    ∧ decode ⟨3, .dec, 0b11010000#8, 0, 0, 0⟩ = .ok (.decStep 3 false)
    ∧ decode ⟨3, .dec, 0b11100000#8, 0, 0, 0⟩ = .ok (.decStop 3) := ⟨rfl, rfl, rfl, rfl⟩

/-- T-ENC-11 to T-ENC-15: a reserved `unit`, `op`, `z` and `a`. -/
theorem test_decode_reserved :
    ([0x00, 0x10, 0x3F, 0x70, 0xB0, 0xF0, 0x42, 0x48, 0x4E, 0x92, 0xD8, 0x51, 0x61, 0x91, 0xA1, 0xC1,
      0xE1, 0xFF] : List Byte).map mnemonicOf = List.replicate 18 none := by decide +kernel

/-- T-ENC-16. -/
theorem test_decode_wrong_port :
    decode ⟨0, .dsm, 0x40, 0, 0, 0⟩ = .error .wrongPort
    ∧ decode ⟨0, .ups, 0xD1, 0, 0, 0⟩ = .error .wrongPort := ⟨rfl, rfl⟩

/-- The bytes of the encoder are those of R85's table. -/
theorem test_encode_bytes :
    [Instr.upsStart 0 .interp, .upsStart 0 .extrap, .upsPush 0 0, .upsFlush 0, .dsmStart 0 .first,
      .dsmStart 0 .second, .dsmStep 0 0, .dsmStop 0, .decStart 0 0 0 0, .decStep 0 false, .decStep 0 true,
      .decStop 0].map encodeByte
    = [0x40, 0x41, 0x50, 0x60, 0x80, 0x81, 0x90, 0xA0, 0xC0, 0xD0, 0xD1, 0xE0] := by decide

theorem test_decodeTableWord :
    (decodeTableWord 8 0x81 = some (.dsmStart 0 .second)) ∧ decodeTableWord 8 0x3F = none := ⟨rfl, rfl⟩

/-- The command placed by `withFetchWord` is the one the next step performs, from reset. -/
theorem test_withFetchWord_runs_first :
    step (State.reset.withFetchWord 8 0x41) = exec (.upsStart 0 .extrap) State.reset := rfl

/-! One step of each command. -/

/-- R103's example. -/
theorem test_upsStart : (after (.upsStart 0 .extrap) .reset).map (·.ups) = some ⟨true, .extrap, false, 0⟩ := by
  decide +kernel

/-- T-UPS-10: the held sample of the open pass is discarded. -/
theorem test_upsStart_abandons : (after (.upsStart 0 .extrap) openInterp).map (·.ups.valid) = some false
    ∧ answers (.upsStart 0 .extrap) openInterp = [⟨0, .ups, .ok, []⟩] := by decide +kernel

/-- T-UPS-9. -/
theorem test_upsPush_first : (after (.upsPush 0 5) justStarted).map (·.ups) = some ⟨true, .interp, true, 5⟩
    ∧ answers (.upsPush 0 5) justStarted = [⟨0, .ups, .ok, []⟩] := by decide +kernel

/-- R104's example, and P1. -/
theorem test_upsPush_extrap : (after (.upsPush 0 (-100)) openExtrap).map (·.ups.prev) = some (-100)
    ∧ answers (.upsPush 0 (-100)) openExtrap = [⟨0, .ups, .ok, List.replicate 32 (.num 500)⟩] := by
  decide +kernel

/-- T-UPS-2, the spot values of the second block: `U[32]`, `U[33]`, `U[48]`, `U[63]`. -/
theorem test_blk_interp : ([0, 1, 16, 31] : List Nat).map (fun r => (blk .interp 100 (-100))[r]?)
    = [some 100, some (375/4), some 0, some (-375/4)] := by decide +kernel

/-- R106: the held sample 32 times, and the pass closed. -/
theorem test_upsFlush : (after (.upsFlush 0) openExtrap).map (·.ups) = some ⟨false, .extrap, false, 0⟩
    ∧ answers (.upsFlush 0) openExtrap = [⟨0, .ups, .ok, List.replicate 32 (.num 100)⟩] := by decide +kernel

/-- R106, R185 (a): an empty pass. -/
theorem test_upsFlush_empty : answers (.upsFlush 0) justStarted = [⟨0, .ups, .ok, []⟩] := by decide +kernel

/-- R122's example. -/
theorem test_dsmStart : (after (.dsmStart 0 .second) openInterp).map (·.dsm) = some ⟨true, .second, 0, 0, 0⟩ := by
  decide +kernel

/-- R124's example, second step; T-DSM1-1. -/
theorem test_dsmStep_first : (after (.dsmStep 0 0) openInterp).map (·.dsm) = some ⟨true, .first, 0, 0, 0⟩
    ∧ answers (.dsmStep 0 0) openInterp = [⟨0, .dsm, .ok, [.pulse false]⟩] := by decide +kernel

/-- P2: the second step, from `I = 33768`, `J = 66536`. -/
theorem test_dsmStep_second :
    (after (.dsmStep 0 (-2000)) { openExtrap with dsm := ⟨true, .second, 0, 33768, 66536⟩ }).map (·.dsm)
      = some ⟨true, .second, 0, -1000, 32768⟩
    ∧ answers (.dsmStep 0 (-2000)) { openExtrap with dsm := ⟨true, .second, 0, 33768, 66536⟩ }
      = [⟨0, .dsm, .ok, [.pulse true]⟩] := by decide +kernel

/-- R126. -/
theorem test_dsmStop : (after (.dsmStop 0) openExtrap).map (·.dsm) = some ⟨false, .second, 0, 0, 0⟩ := by
  decide +kernel

/-- T-ERR-2. -/
theorem test_dsmStop_idle : after (.dsmStop 0) .reset = some .reset
    ∧ answers (.dsmStop 0) .reset = [⟨0, .dsm, .errIdle, []⟩] := by decide +kernel

/-- T-ERR-8: the open pass is restarted. -/
theorem test_decStart : (after (.decStart 0 (1/2) (1/4) (1/8)) openExtrap).map (·.dec) = some justStarted.dec := by
  decide +kernel

/-- T-ERR-7: a refused start leaves the open pass as it was. -/
theorem test_decStart_errParam : after (.decStart 0 2 (1/2) (1/2)) openExtrap = some openExtrap
    ∧ answers (.decStart 0 2 (1/2) (1/2)) openExtrap = [⟨0, .dec, .errParam, []⟩] := by decide +kernel

/-- T-DEC-3: three different coefficients. -/
theorem test_decStep : (after (.decStep 0 true) justStarted).map (·.dec)
    = some { justStarted.dec with y1 := 16384, y2 := 4096, y3 := 512, period := 512, cnt := 1 } := by
  decide +kernel

/-- P3, T-DEC-4: the 32nd pulse. -/
theorem test_decStep_emits : (after (.decStep 0 true) openInterp).map (·.dec)
      = some { decAt31 with
          y1 := 4294967295/131072, y2 := 4294967279/131072, y3 := 4294967147/131072, period := 0, cnt := 0 }
    ∧ answers (.decStep 0 true) openInterp = [⟨0, .dec, .ok, [.num (124554051751/4194304)]⟩] := by
  decide +kernel

/-- R143: the partial block is dropped. -/
theorem test_decStop : (after (.decStop 0) openExtrap).map (·.dec)
      = some { Dec.reset with k1 := 1/2, k2 := 1/2, k3 := 1/2 }
    ∧ answers (.decStop 0) openExtrap = [⟨0, .dec, .ok, []⟩] := by decide +kernel

/-- T-ERR-4: illegal is reported before idle. -/
theorem test_illegal_before_idle :
    step (stateOf .reset [.command ⟨0, .dec, 0xD2, 0, 0, 0⟩])
      = .next { stateOf .reset [] with responses := [⟨0, .dec, .errIllegal, []⟩] } := rfl

/-! Reference software and assembler, on the vectors of 95_test_vectors.md. -/

/-- T-REF-1, both orders. -/
theorem test_reduceFrequency :
    reduceFrequency [true, false, true, true, false, false, true, false] 4
      = .ok [false, true, true, true, false, false, false, true]
    ∧ reduceFrequency [true, false, true, true, false, false, true, false] 4 .highFirst
      = .ok [true, true, true, false, true, false, false, false] := ⟨rfl, rfl⟩

/-- T-REF-7. -/
theorem test_meanSquare : meanSquare [1, 2, 3, 4] [2, 2, 2, 2] = 3/2 := by decide +kernel

/-- T-REF-9. -/
theorem test_rotl : rotl [true, false, false, true, true] 2 = [false, true, true, true, false] := rfl

/-- R168, R171: the commands of two offsets over three pulses, the second pass on the rotated stream (T-REF-9's
`rotl`). -/
theorem test_offsetPasses : offsetPasses 0 [true, false, false] (1/2) 2
    = [.decStart 0 (1/2) (1/2) (1/2), .decStep 0 true, .decStep 0 false, .decStep 0 false, .decStop 0,
       .decStart 0 (1/2) (1/2) (1/2), .decStep 0 false, .decStep 0 false, .decStep 0 true, .decStop 0] := rfl

/-- R86: a ratio and a negative decimal. -/
theorem test_parseNum : parseNum "1/2".toList = some (1/2) ∧ parseNum "-0.15".toList = some (-3/20) := by
  decide +kernel

/-- R85, R87: a channel prefix, a comment, a repeat and a reserved byte. -/
theorem test_assemble :
    assemble .dsm [.times 2 ["ch1: dec.step 1 ; comment".toList], .line ".byte 0x91".toList]
      = some [⟨1, .dec, 0xD1, 0, 0, 0⟩, ⟨1, .dec, 0xD1, 0, 0, 0⟩, ⟨0, .dsm, 0x91, 0, 0, 0⟩] := by
  decide +kernel

/-! Witnesses: for each statement with hypotheses, a state and operands that meet them together. -/

/-- A command the decoder accepts, one per clause: O2, O3. -/
theorem witness_decoded :
    decode ⟨0, .ups, 0x50, 7, 8, 9⟩ = .ok (.upsPush 0 7)
    ∧ decode ⟨0, .dsm, 0x90, 7, 8, 9⟩ = .ok (.dsmStep 0 7)
    ∧ decode ⟨0, .dec, 0xC0, 7, 8, 9⟩ = .ok (.decStart 0 7 8 9)
    ∧ decode ⟨0, .dec, 0xD1, 7, 8, 9⟩ = .ok (.decStep 0 true) := ⟨rfl, rfl, rfl, rfl⟩

/-- O8 StepExecutesTheDecodedCommand. -/
theorem witness_stepExecutes :
    ∃ s : State, s.inputs = .command ⟨0, .dsm, 0x90, 7, 0, 0⟩ :: [.reset]
      ∧ decode ⟨0, .dsm, 0x90, 7, 0, 0⟩ = .ok (.dsmStep 0 7) :=
  ⟨stateOf openInterp [.command ⟨0, .dsm, 0x90, 7, 0, 0⟩, .reset], rfl, rfl⟩

/-- O6 DefinedBytesDecodeAsTabled, first clause: a byte outside the twelve. -/
theorem witness_reservedByte :
    (Transaction.mk 0 .dsm 0x91 7 0 0).cmd
      ∉ ([0x40, 0x41, 0x50, 0x60, 0x80, 0x81, 0x90, 0xA0, 0xC0, 0xD0, 0xD1, 0xE0] : List Byte) := by decide

/-- O9 IllegalTransactionIsAnsweredErrIllegal, a reserved byte and a wrong port, with passes open. -/
theorem witness_illegal :
    ((stateOf openInterp [.command ⟨0, .dsm, 0x91, 7, 0, 0⟩]).inputs = .command ⟨0, .dsm, 0x91, 7, 0, 0⟩ :: []
      ∧ (stateOf openInterp [.command ⟨0, .dsm, 0x91, 7, 0, 0⟩]).channels[0]? = some openInterp
      ∧ ∀ row ∈ opcodeMap, (0x91 : Byte) &&& row.mask ≠ row.value)
    ∧ ((stateOf openInterp [.command ⟨0, .dsm, 0x40, 7, 0, 0⟩]).inputs = .command ⟨0, .dsm, 0x40, 7, 0, 0⟩ :: []
      ∧ (stateOf openInterp [.command ⟨0, .dsm, 0x40, 7, 0, 0⟩]).channels[0]? = some openInterp
      ∧ unitField 0x40 ≠ unitCode .dsm) :=
  ⟨⟨rfl, rfl, by decide⟩, ⟨rfl, rfl, by decide⟩⟩

/-- O10 ResetEventClearsEveryUnit, in the middle of three passes. -/
theorem witness_resetEvent : (stateOf openInterp [.reset]).inputs = .reset :: [] := rfl

/-- O12 NothingIssuedNothingChanges. -/
theorem witness_nothingIssued : (stateOf openInterp []).inputs = [] := rfl

/-- O13 NoSuchPortStopsByName. -/
theorem witness_noSuchPort : State.reset.channels[(Instr.upsFlush Config.nchan).channel]? = none := by
  simp [State.reset, Instr.channel]

/-- The channel every per-command statement asks for exists, open or idle: O14, O18, and the first
hypothesis of O15, O17, O19 to O26, O28. -/
theorem witness_channel :
    (stateOf openInterp []).channels[0]? = some openInterp
    ∧ (stateOf openExtrap []).channels[0]? = some openExtrap
    ∧ (stateOf justStarted []).channels[0]? = some justStarted
    ∧ (stateOf .reset []).channels[0]? = some Channel.reset := ⟨rfl, rfl, rfl, rfl⟩

/-- O15 UpsPushEmitsThePreviousBlock, its four clauses. -/
theorem witness_upsPush :
    Channel.reset.ups.run = false
    ∧ (justStarted.ups.run = true ∧ justStarted.ups.valid = false)
    ∧ (openInterp.ups.run = true ∧ openInterp.ups.valid = true ∧ openInterp.ups.mode = .interp)
    ∧ (openExtrap.ups.run = true ∧ openExtrap.ups.valid = true ∧ openExtrap.ups.mode = .extrap) := by decide

/-- O17 UpsFlushEmitsTheLastBlock: idle, with a sample held, with none. -/
theorem witness_upsFlush :
    Channel.reset.ups.run = false ∧ (openInterp.ups.run = true ∧ openInterp.ups.valid = true)
    ∧ (justStarted.ups.run = true ∧ justStarted.ups.valid = false) := by decide

/-- O19 DsmStepFirstOrder: the tie `inp = 0` falls under the first clause only, one below it under the
second only. -/
theorem witness_dsmStepFirst :
    openInterp.dsm.run = true ∧ openInterp.dsm.order = .first
    ∧ 0 ≤ (32768 : Num) + openInterp.dsm.error ∧ (32767 : Num) + openInterp.dsm.error < 0 := by decide +kernel

/-- O20 DsmStepSecondOrder: `integrator2 > 0`, and the tie `integrator2 = 0`. -/
theorem witness_dsmStepSecond :
    (openExtrap.dsm.run = true ∧ openExtrap.dsm.order = .second ∧ 0 < openExtrap.dsm.integrator2)
    ∧ (justStarted.dsm.run = true ∧ justStarted.dsm.order = .second ∧ justStarted.dsm.integrator2 ≤ 0) := by
  decide +kernel

/-- O21 DsmStopClosesThePass, both clauses. -/
theorem witness_dsmStop : Channel.reset.dsm.run = false ∧ openInterp.dsm.run = true := by decide

/-- O16 BlockElementsAreTheFormulas: two different samples, and both ends of the block. -/
theorem witness_block : (100 : Num) ≠ -100 ∧ 0 < 32 ∧ 31 < 32 := by decide +kernel

/-- O22 DecStartOpensAFreshPass, both clauses: T-ERR-10, near both ends of the range, and T-ERR-5, at the
excluded end. -/
theorem witness_decStart :
    (((0 : Num) < 1/1000000 ∧ (1/1000000 : Num) < 1) ∧ ((0 : Num) < 999999/1000000 ∧ (999999/1000000 : Num) < 1)
      ∧ ((0 : Num) < 1/2 ∧ (1/2 : Num) < 1))
    ∧ ¬ (((0 : Num) < 0 ∧ (0 : Num) < 1) ∧ ((0 : Num) < 1/2 ∧ (1/2 : Num) < 1)
      ∧ ((0 : Num) < 1/2 ∧ (1/2 : Num) < 1))
    ∧ ¬ (((0 : Num) < 1/2 ∧ (1/2 : Num) < 1) ∧ ((0 : Num) < 1 ∧ (1 : Num) < 1)
      ∧ ((0 : Num) < 1/2 ∧ (1/2 : Num) < 1)) := by decide +kernel

/-- O23 ErrParamIsOnlyForCoefficients: its one hypothesis, for a refused and for a legal start. -/
theorem witness_errParam :
    (stateOf openInterp []).channels[(Instr.decStart 0 (1/2) 1 (1/2)).channel]? = some openInterp
    ∧ (stateOf openInterp []).channels[(Instr.decStart 0 (1/2) (1/2) (1/2)).channel]? = some openInterp :=
  ⟨rfl, rfl⟩

/-- O24 DecStepFiltersAndDecimates: idle; the 31st pulse still accumulates; the 32nd closes the block. -/
theorem witness_decStep :
    Channel.reset.dec.run = false
    ∧ (({ openInterp with dec := { decAt31 with cnt := 30 } } : Channel).dec.run = true
      ∧ ({ decAt31 with cnt := 30 } : Dec).cnt + 1 ≠ 32)
    ∧ (openInterp.dec.run = true ∧ openInterp.dec.cnt + 1 = 32) := by decide

/-- O25 DecStopDropsThePartialBlock, both clauses. -/
theorem witness_decStop : Channel.reset.dec.run = false ∧ openInterp.dec.run = true := by decide

/-- O26 IdleUnitAnswersErrIdle: after reset a data command of each unit is idle; with a pass open, or a
START, it is not. -/
theorem witness_idle :
    (stateOf .reset []).channels[(Instr.upsPush 0 7).channel]? = some Channel.reset
    ∧ idleFor (.upsPush 0 7) .reset ∧ idleFor (.dsmStep 0 7) .reset ∧ idleFor (.decStop 0) .reset
    ∧ ¬ idleFor (.upsPush 0 7) openInterp ∧ ¬ idleFor (.dsmStart 0 .first) .reset := by
  refine ⟨rfl, rfl, rfl, rfl, ?_, id⟩
  intro h
  cases h

/-- O27 OneResponseAndErrorsChangeNothing, O28 StatusIsDecidedAsTabled: a transaction whose step answers a
next state, with status `OK` and with an error. -/
theorem witness_oneResponse :
    (∃ t, step (stateOf openInterp [.command ⟨0, .dsm, 0x90, 7, 0, 0⟩]) = .next t)
    ∧ (∃ t, step (stateOf .reset [.command ⟨0, .dsm, 0x90, 7, 0, 0⟩]) = .next t) := ⟨⟨_, rfl⟩, ⟨_, rfl⟩⟩

/-- O29 CommandTouchesOnlyItsOwnUnit, O30 OptionsChangeOnlyAtStart: a next state, the channel before and
after, in both orders. -/
theorem witness_frame :
    (∃ t c', exec (.dsmStep 0 7) (stateOf openInterp []) = .next t
      ∧ (stateOf openInterp []).channels[0]? = some openInterp ∧ t.channels[0]? = some c'
      ∧ openInterp.dsm.order = .first)
    ∧ (∃ t c', exec (.dsmStep 0 7) (stateOf openExtrap []) = .next t
      ∧ (stateOf openExtrap []).channels[0]? = some openExtrap ∧ t.channels[0]? = some c'
      ∧ openExtrap.dsm.order = .second) :=
  ⟨⟨_, _, rfl, rfl, rfl, rfl⟩, ⟨_, _, rfl, rfl, rfl, rfl⟩⟩

/-- O31 IndependentCommandsCommute: two units of one channel, and two channels. -/
theorem witness_commute :
    ((Instr.upsPush 0 7).unit ≠ (Instr.decStep 0 true).unit
      ∧ (stateOf openInterp []).channels[(Instr.upsPush 0 7).channel]? = some openInterp
      ∧ (stateOf openInterp []).channels[(Instr.decStep 0 true).channel]? = some openInterp)
    ∧ ((Instr.upsPush 0 7).channel ≠ (Instr.upsPush 1 7).channel
      ∧ ({ stateOf openInterp [] with channels := [openInterp, openExtrap] } : State).channels[0]? = some openInterp
      ∧ ({ stateOf openInterp [] with channels := [openInterp, openExtrap] } : State).channels[1]?
          = some openExtrap) := by
  refine ⟨⟨by decide, rfl, rfl⟩, ⟨by decide, rfl, rfl⟩⟩

/-- O32 IdleOptionsAreUnobservable: two states that differ in every latched option, with a command issued. -/
theorem witness_sameObservable :
    (stateOf .reset [.command ⟨0, .ups, 0x50, 7, 0, 0⟩]).SameObservable
        (stateOf idleOther [.command ⟨0, .ups, 0x50, 7, 0, 0⟩])
    ∧ Channel.reset ≠ idleOther := by
  refine ⟨⟨by decide +kernel, rfl, rfl⟩, by decide +kernel⟩

/-- The parts of R42 that hold of each of the test channels. -/
theorem witness_channelInv :
    openInterp.Inv ∧ openExtrap.Inv ∧ justStarted.Inv ∧ idleOther.Inv := by
  simp [Channel.Inv, Ups.Inv, Dsm.Inv, Dec.Inv, openInterp, openExtrap, justStarted, idleOther, decAt31, decAt5,
    Ups.reset, Dsm.reset, Dec.reset]
  norm_num

theorem witness_decBounded : openInterp.dec.Bounded ∧ openExtrap.dec.Bounded := by
  simp only [Dec.Bounded, openInterp, openExtrap, decAt31, decAt5, Config.fullscale, abs_lt]
  norm_num

theorem witness_wholeInv {c : Channel} (h : c.Inv) (is : List Input) : (wholeState c is).Inv := by
  refine ⟨by simp [wholeState], fun d hd => ?_⟩
  rw [List.eq_of_mem_replicate hd]
  exact h

theorem witness_wholeBounded {c : Channel} (h : c.dec.Bounded) (is : List Input) :
    (wholeState c is).Bounded := by
  intro d hd
  rw [List.eq_of_mem_replicate hd]
  exact h

/-- O33 ClosedPassesLookLikeReset: a block with every pass closed, its options not those of reset. -/
theorem witness_closedPasses :
    (wholeState idleOther []).Inv ∧ (∀ c ∈ (wholeState idleOther []).channels, c.idle)
    ∧ (wholeState idleOther []).inputs = [] ∧ (wholeState idleOther []).responses = [] := by
  refine ⟨witness_wholeInv witness_channelInv.2.2.2 [], fun d hd => ?_, rfl, rfl⟩
  rw [List.eq_of_mem_replicate hd]
  exact ⟨rfl, rfl, rfl⟩

/-- O34 StepKeepsTheInvariant, O35 StepKeepsTheDecimatorBounded, O38 AddressedHostIsNeverStopped: a block
with every pass open and the pulse issued that closes a DEC block. -/
theorem witness_invariant :
    (wholeState openInterp [.command ⟨0, .dec, 0xD1, 0, 0, 0⟩]).Inv
    ∧ (wholeState openInterp [.command ⟨0, .dec, 0xD1, 0, 0, 0⟩]).Bounded
    ∧ (wholeState openInterp [.command ⟨0, .dec, 0xD1, 0, 0, 0⟩]).Addressed
    ∧ ∃ t, step (wholeState openInterp [.command ⟨0, .dec, 0xD1, 0, 0, 0⟩]) = .next t := by
  refine ⟨witness_wholeInv witness_channelInv.1 _, witness_wholeBounded witness_decBounded.1 _, ?_, ⟨_, rfl⟩⟩
  intro i hi
  simp only [wholeState, List.mem_singleton] at hi
  subst hi
  exact test_wellFormed_channel_zero

/-- O37 EmittedDecSamplesAreBelowFullScale: a step that does emit a sample. -/
theorem witness_emittedSample :
    (wholeState openInterp []).Inv ∧ (wholeState openInterp []).Bounded
    ∧ ∃ t rs v, exec (.decStep 0 true) (wholeState openInterp []) = .next t
      ∧ t.responses = (wholeState openInterp []).responses ++ rs ∧ ∃ r ∈ rs, .num v ∈ r.emitted :=
  ⟨witness_wholeInv witness_channelInv.1 _, witness_wholeBounded witness_decBounded.1 _,
    _, _, _, rfl, rfl, _, List.mem_singleton_self _, List.mem_singleton_self _⟩

/-- O39 to O42: passes issued on channel 0, in the middle of other passes; O46 to O48 likewise. -/
theorem witness_passes :
    (stateOf openInterp []).channels[0]? = some openInterp
    ∧ (stateOf openInterp (issue (upsampleProgram 0 .interp [0, 100]) ++ [.reset])).inputs
      = issue (upsampleProgram 0 .interp [0, 100]) ++ [.reset]
    ∧ (stateOf openInterp (issue (modulateProgram 0 .second [0, 100]) ++ [.reset])).inputs
      = issue (modulateProgram 0 .second [0, 100]) ++ [.reset]
    ∧ (stateOf openInterp (issue (demodulateProgram 0 [true, false] (1/2) (1/4) (1/8)) ++ [.reset])).inputs
      = issue (demodulateProgram 0 [true, false] (1/2) (1/4) (1/8)) ++ [.reset]
    ∧ (stateOf openInterp (issue (roundtripProgram 0 .extrap .first (3/20) [0, 100]))).inputs
      = issue (roundtripProgram 0 .extrap .first (3/20) [0, 100])
    ∧ ((0 : Num) < 3/20 ∧ (3/20 : Num) < 1)
    ∧ (stateOf openInterp (issue (.dsmStart 0 .first :: [5, 6].map (.dsmStep 0)) ++ [])).inputs
      = issue (.dsmStart 0 .first :: [5, 6].map (.dsmStep 0)) ++ []
    ∧ (stateOf openInterp (issue (.dsmStart 0 .second :: List.replicate 3 (.dsmStep 0 32768)) ++ [])).inputs
      = issue (.dsmStart 0 .second :: List.replicate 3 (.dsmStep 0 32768)) ++ [] :=
  ⟨rfl, rfl, rfl, rfl, rfl, by decide +kernel, rfl, rfl⟩

/-- O43 UpsampleBlockShape: a sample with a successor, and the last index inside a block. -/
theorem witness_blockShape :
    ([0, 100] : List Num)[0]? = some 0 ∧ ([0, 100] : List Num)[0 + 1]? = some 100 := ⟨rfl, rfl⟩

/-- O44 UpsampleIsLinear: two Signals of equal length. -/
theorem witness_linear : ([0, 100] : List Num).length = ([1, 2] : List Num).length := rfl

/-- O45 FirstOrderErrorStaysBounded: the ends of both ranges. -/
theorem witness_firstOrderBound :
    openInterp.dsm.run = true ∧ openInterp.dsm.order = .first
    ∧ -32768 ≤ openInterp.dsm.error ∧ openInterp.dsm.error < 32768
    ∧ (-32768 : Num) ≤ -32768 ∧ (-32768 : Num) ≤ 32768 := by decide +kernel

/-- O48 SecondOrderZeroInputHasPeriodFour: an order-2 pass with zero accumulators. -/
theorem witness_periodFour :
    (stateOf justStarted (issue (List.replicate 4 (.dsmStep 0 0)) ++ [])).channels[0]? = some justStarted
    ∧ justStarted.dsm.run = true ∧ justStarted.dsm.order = .second
    ∧ justStarted.dsm.integrator = 0 ∧ justStarted.dsm.integrator2 = 0
    ∧ (stateOf justStarted (issue (List.replicate 4 (.dsmStep 0 0)) ++ [])).inputs
      = issue (List.replicate 4 (.dsmStep 0 0)) ++ [] := ⟨rfl, rfl, rfl, rfl, rfl, rfl⟩

/-- O49 DemodulateLengthSymmetryCausality: two streams that agree on the first block only. -/
theorem witness_causality :
    32 * (0 + 1) ≤ (List.replicate 33 true).length
    ∧ 32 * (0 + 1) ≤ (List.replicate 32 true ++ [false]).length
    ∧ (List.replicate 33 true).take (32 * (0 + 1)) = (List.replicate 32 true ++ [false]).take (32 * (0 + 1))
    ∧ List.replicate 33 true ≠ List.replicate 32 true ++ [false] := by decide

/-- O50 StepResponseOfTheCascade. -/
theorem witness_stepResponse : (3 : Nat) ≤ 4 := by decide

/-- O51 ReduceFrequencyKeepsDutyCycle: a window below 1, and the smallest legal one. -/
theorem witness_windows : ((0 : Int) < 1) ∧ (1 : Nat) ≤ 1 := by decide

/-- O52 RmseIsStrictAndMonotone: a non-empty sequence, unequal lengths (T-REF-8), and two pairs with a
root each (T-REF-7: `rmse([3], [0]) = 3`). -/
theorem witness_rmse :
    ([1, 2, 3] : List Num) ≠ [] ∧ ([1, 2] : List Num).length ≠ ([1, 2, 3] : List Num).length
    ∧ IsRmse [3] [0] 3 ∧ mse [3] [0] = .ok 9 ∧ IsRmse [1] [1] 0 ∧ mse [1] [1] = .ok 0 := by
  have h9 : mse [3] [0] = .ok 9 := by
    have : meanSquare [3] [0] = 9 := by decide +kernel
    simp [mse, this]
  have h0 : mse [1] [1] = .ok 0 := by
    have : meanSquare [1] [1] = 0 := by decide +kernel
    simp [mse, this]
  exact ⟨by simp, by decide, ⟨9, h9, by norm_num, by norm_num⟩, h9, ⟨0, h0, le_refl _, by norm_num⟩, h0⟩

/-- O53 OffsetSearchFindsTheLeastError: the call of T-REF-11. -/
theorem witness_offsetSearch :
    (1 : Nat) ≤ 5 ∧ ((0 : Num) < 1/2 ∧ (1/2 : Num) < 1) ∧ 32 ≤ (List.replicate 32 true).length
    ∧ ([0] : List Num) ≠ [] := by
  refine ⟨by decide, by decide +kernel, by decide, by simp⟩

/-- The search's commands are issued in the middle of other passes, an open DEC pass among them:
O54 SearchCommandsComputeTheSearch. -/
theorem witness_searchCommands :
    (1 : Nat) ≤ 2 ∧ ((0 : Num) < 1/2 ∧ (1/2 : Num) < 1) ∧ 32 ≤ (List.replicate 32 true).length
    ∧ ([0] : List Num) ≠ []
    ∧ (stateOf openInterp (issue (searchProgram 0 (List.replicate 32 true) [0] 2 (1/2)) ++ [.reset])).channels[0]?
      = some openInterp
    ∧ (stateOf openInterp (issue (searchProgram 0 (List.replicate 32 true) [0] 2 (1/2)) ++ [.reset])).inputs
      = issue (searchProgram 0 (List.replicate 32 true) [0] 2 (1/2)) ++ [.reset] := by
  refine ⟨by decide, by decide +kernel, by decide, by simp, rfl, rfl⟩

/-- O55 RefusedSearchHasNoValueAndNoCommand: each disjunct, at the end of its range. -/
theorem witness_refusedSearch :
    (0 : Int) < 1 ∧ (List.replicate 31 true).length < 32 ∧ ([] : List Num) = [] ∧ (0 : Num) ≤ 0 ∧ (1 : Num) ≤ 1 := by
  decide +kernel

end Sys2Proof.Tests
end

section
/-! The twelve defined bytes and what decoding makes of them (30_encoding.md R77 to R79). -/

namespace Sys2Proof.Proofs

open Sys2Proof.Laws

/-- A byte that selects no row of R77 is reserved, whatever the port and the lanes. -/
theorem decode_of_mnemonicOf_none {t : Transaction} (h : mnemonicOf t.cmd = none) :
    decode t = .error .reservedByte := by
  simp only [decode, h]

/-- One of a command's own bytes, on the port of its unit, decodes to that command. -/
theorem decode_of_mem_bytesOf (n : Mnemonic) (ch : Nat) (x y z : Num) {b : Byte} (hb : b ∈ bytesOf n) :
    decode ⟨ch, unitOf n, b, x, y, z⟩ = .ok (assembleOperands ⟨ch, unitOf n, b, x, y, z⟩ n) := by
  have hn : mnemonicOf b = some n := (mnemonicOf_bytes b n).mpr hb
  simp only [decode, hn, if_true]

/-! The three commands whose byte carries an argument bit: the option or the pulse it stands for (R78, R79). -/

theorem decode_upsStart_byte (ch : Nat) (x y z : Num) {b : Byte} {m : UpsMode}
    (hb : b ∈ bytesOf .upsStart) (hm : modeOfBit (argBit b) = m) :
    decode ⟨ch, .ups, b, x, y, z⟩ = .ok (.upsStart ch m) :=
  hm ▸ decode_of_mem_bytesOf .upsStart ch x y z hb

theorem decode_dsmStart_byte (ch : Nat) (x y z : Num) {b : Byte} {n : DsmOrder}
    (hb : b ∈ bytesOf .dsmStart) (hn : orderOfBit (argBit b) = n) :
    decode ⟨ch, .dsm, b, x, y, z⟩ = .ok (.dsmStart ch n) :=
  hn ▸ decode_of_mem_bytesOf .dsmStart ch x y z hb

theorem decode_decStep_byte (ch : Nat) (x y z : Num) {b : Byte} {p : Pulse}
    (hb : b ∈ bytesOf .decStep) (hp : argBit b = p) :
    decode ⟨ch, .dec, b, x, y, z⟩ = .ok (.decStep ch p) :=
  hp ▸ decode_of_mem_bytesOf .decStep ch x y z hb

/-- The twelve defined bytes, in the order of R77's rows. -/
def definedBytes : List Byte :=
  [0x40, 0x41, 0x50, 0x60, 0x80, 0x81, 0x90, 0xA0, 0xC0, 0xD0, 0xD1, 0xE0]

/-- The bytes of every command are among the twelve. -/
theorem bytesOf_subset_definedBytes (n : Mnemonic) : bytesOf n ⊆ definedBytes := by
  cases n <;> decide

/-- A byte outside the twelve selects no row. -/
theorem mnemonicOf_eq_none_of_not_mem {b : Byte} (h : b ∉ definedBytes) : mnemonicOf b = none :=
  Option.eq_none_iff_forall_ne_some.mpr fun n hn =>
    h (bytesOf_subset_definedBytes n ((mnemonicOf_bytes b n).mp hn))

/-- Settles O6: a byte outside the twelve is in no command's list of bytes; each of the twelve is in
the list of the command the table names, and operand assembly gives its operands. -/
theorem definedBytesDecodeAsTabled : Obligations.DefinedBytesDecodeAsTabled := by
  refine ⟨fun t ht => decode_of_mnemonicOf_none (mnemonicOf_eq_none_of_not_mem ht), fun ch x y z => ?_⟩
  exact ⟨decode_upsStart_byte ch x y z (by decide) (by decide),
    decode_upsStart_byte ch x y z (by decide) (by decide),
    decode_of_mem_bytesOf .upsPush ch x y z (by decide),
    decode_of_mem_bytesOf .upsFlush ch x y z (by decide),
    decode_dsmStart_byte ch x y z (by decide) (by decide),
    decode_dsmStart_byte ch x y z (by decide) (by decide),
    decode_of_mem_bytesOf .dsmStep ch x y z (by decide),
    decode_of_mem_bytesOf .dsmStop ch x y z (by decide),
    decode_of_mem_bytesOf .decStart ch x y z (by decide),
    decode_decStep_byte ch x y z (by decide) (by decide),
    decode_decStep_byte ch x y z (by decide) (by decide),
    decode_of_mem_bytesOf .decStop ch x y z (by decide)⟩

end Sys2Proof.Proofs
end

section
/-! What any transition may answer: the length and kind of its emitted list, and no effect on an error
(30_encoding.md R73, 60_exceptions.md R186). -/

namespace Sys2Proof.Proofs

open Sys2Proof.Machine Sys2Proof.Laws

/-- The elements a port carries: Nums on UPS and DEC, pulse bits on DSM (R73). -/
def CarriedBy (u : UnitName) : Datum → Prop
  | .num _ => u = .ups ∨ u = .dec
  | .pulse _ => u = .dsm

/-- `p`, the registers after a transition from `regs` and its reply, is one that port `u` may answer. It
is stated for any registers, a unit's or a whole channel's. -/
structure Answers {ρ : Type} (u : UnitName) (regs : ρ) (p : ρ × Reply) : Prop where
  length : p.2.emitted.length = 0 ∨ p.2.emitted.length = 1 ∨ p.2.emitted.length = 32
  carried : ∀ d ∈ p.2.emitted, CarriedBy u d
  noEffect : p.2.status ≠ .ok → p.1 = regs ∧ p.2.emitted = []

section
variable {ρ : Type} {u : UnitName}

/-- The error response, on every port. -/
theorem answers_failWith (regs : ρ) (st : Status) : Answers u regs (failWith regs st) where
  length := .inl rfl
  carried := by simp
  noEffect _ := ⟨rfl, rfl⟩

/-- Success with nothing emitted, on every port. -/
theorem answers_ok_nil (regs regs' : ρ) : Answers u regs (regs', okReply []) where
  length := .inl rfl
  carried := by simp
  noEffect h := absurd rfl h

/-- Success with one Num or a block of 32. -/
theorem answers_ok_nums (hu : u = .ups ∨ u = .dec) (regs regs' : ρ) {l : List Num}
    (hl : l.length = 1 ∨ l.length = 32) : Answers u regs (regs', okReply (nums l)) where
  length := .inr (by simpa [nums] using hl)
  carried := by simp [nums, CarriedBy, hu]
  noEffect h := absurd rfl h

/-- Success with one pulse. -/
theorem answers_ok_pulse (regs regs' : ρ) (b : Pulse) :
    Answers .dsm regs (regs', okReply (pulses [b])) where
  length := .inr (.inl rfl)
  carried := by simp [pulses, CarriedBy]
  noEffect h := absurd rfl h

/-- A unit's transition, put back into the registers it is part of. -/
theorem Answers.lift {σ : Type} {regs : ρ} {p : ρ × Reply} (h : Answers u regs p) (put : ρ → σ) :
    Answers u (put regs) (put p.1, p.2) where
  length := h.length
  carried := h.carried
  noEffect hst := (h.noEffect hst).imp_left (congrArg put)

end

/-! Each unit's data and stop commands and `DEC.START`, by the branches of their rules. -/

theorem upsPushUnit_answers (v : Num) (r : Ups) : Answers .ups r (upsPushUnit v r) := by
  cases hrun : r.run with
  | false => rw [upsPushUnit_idle v hrun]; exact answers_failWith ..
  | true =>
    rw [upsPushUnit_open v hrun]
    split
    · exact answers_ok_nums (.inl rfl) _ _ (.inr (blk_length ..))
    · exact answers_ok_nil ..

theorem upsFlushUnit_answers (r : Ups) : Answers .ups r (upsFlushUnit r) := by
  cases hrun : r.run with
  | false => rw [upsFlushUnit_idle hrun]; exact answers_failWith ..
  | true =>
    rw [upsFlushUnit_open hrun]
    split
    · exact answers_ok_nums (.inl rfl) _ _ (.inr List.length_replicate)
    · exact answers_ok_nil ..

theorem dsmStepUnit_answers (x : Num) (r : Dsm) : Answers .dsm r (dsmStepUnit x r) := by
  cases hrun : r.run with
  | false => rw [dsmStepUnit_idle x hrun]; exact answers_failWith ..
  | true =>
    cases hord : r.order with
    | first => rw [dsmStepUnit_first x hrun hord]; exact answers_ok_pulse ..
    | second => rw [dsmStepUnit_second x hrun hord]; exact answers_ok_pulse ..

theorem dsmStopUnit_answers (r : Dsm) : Answers .dsm r (dsmStopUnit r) := by
  cases hrun : r.run with
  | false => rw [dsmStopUnit_idle hrun]; exact answers_failWith ..
  | true => rw [dsmStopUnit_open hrun]; exact answers_ok_nil ..

theorem decStartUnit_answers (k1 k2 k3 : Num) (r : Dec) : Answers .dec r (decStartUnit k1 k2 k3 r) := by
  cases hk : coefficientsLegal k1 k2 k3 with
  | false => rw [decStartUnit_illegal r hk]; exact answers_failWith ..
  | true => rw [decStartUnit_legal r hk]; exact answers_ok_nil ..

theorem decStepUnit_answers (b : Pulse) (r : Dec) : Answers .dec r (decStepUnit b r) := by
  cases hrun : r.run with
  | false => rw [decStepUnit_idle b hrun]; exact answers_failWith ..
  | true =>
    rw [decStepUnit_open b hrun]
    by_cases hcnt : (filterPulse b r).cnt + 1 = 32
    · rw [decimate_complete hcnt]; exact answers_ok_nums (.inr rfl) _ _ (.inl rfl)
    · rw [decimate_partial hcnt]; exact answers_ok_nil ..

theorem decStopUnit_answers (r : Dec) : Answers .dec r (decStopUnit r) := by
  cases hrun : r.run with
  | false => rw [decStopUnit_idle hrun]; exact answers_failWith ..
  | true => rw [decStopUnit_open hrun]; exact answers_ok_nil ..

/-- Every command's transition of its channel answers as its port may. -/
theorem unitStep_answers (i : Instr) (c : Channel) : Answers i.unit c (unitStep i c) := by
  cases i with
  | upsStart _ m => exact answers_ok_nil ..
  | upsPush _ v => exact (upsPushUnit_answers v c.ups).lift fun r => { c with ups := r }
  | upsFlush _ => exact (upsFlushUnit_answers c.ups).lift fun r => { c with ups := r }
  | dsmStart _ n => exact answers_ok_nil ..
  | dsmStep _ x => exact (dsmStepUnit_answers x c.dsm).lift fun r => { c with dsm := r }
  | dsmStop _ => exact (dsmStopUnit_answers c.dsm).lift fun r => { c with dsm := r }
  | decStart _ k1 k2 k3 => exact (decStartUnit_answers k1 k2 k3 c.dec).lift fun r => { c with dec := r }
  | decStep _ b => exact (decStepUnit_answers b c.dec).lift fun r => { c with dec := r }
  | decStop _ => exact (decStopUnit_answers c.dec).lift fun r => { c with dec := r }

/-- Everything a step on a transaction can have done when it answers a next state: one transition of the
addressed channel and one response on the transaction's port. -/
theorem step_command_next {s t : State} {x : Transaction} {rest : List Input}
    (hi : s.inputs = .command x :: rest) (h : step s = .next t) :
    ∃ c p, s.channels[x.channel]? = some c ∧ Answers x.port c p
      ∧ t = ((s.withInputs rest).putChannel x.channel p.1).respond x.channel x.port p.2 := by
  rw [step_of_cons hi, performInput, performTransaction_eq] at h
  obtain ⟨c, hc, rfl⟩ := onChannel_next h
  refine ⟨c, _, hc, ?_, rfl⟩
  cases hd : decode x with
  | error e => exact answers_failWith ..
  | ok i => rw [← (decode_port hd).1]; exact unitStep_answers i c

/-- Settles O27: the one response is that of the transition the step makes, and a transition that answers an
error writes back the channel it read. -/
theorem oneResponseAndErrorsChangeNothing : Obligations.OneResponseAndErrorsChangeNothing := by
  intro s t x rest hi h
  obtain ⟨c, p, hc, hp, rfl⟩ := step_command_next hi h
  refine ⟨_, rfl, rfl, rfl, hp.length, ?_, ?_⟩
  · intro d hd
    have hcarried := hp.carried d hd
    cases d <;> exact hcarried
  · intro hst
    obtain ⟨hregs, hnil⟩ := hp.noEffect hst
    rw [hregs, putChannel_same (s := s.withInputs rest) hc]
    exact ⟨rfl, hnil⟩

end Sys2Proof.Proofs
end

section
/-! The upsampler: the elements of a block (41_upsampler.md R105), and the next state of each of its three
commands (R103, R104, R106). -/

namespace Sys2Proof.Proofs

open Sys2Proof.Machine Sys2Proof.Laws

/-- A command that answers `OK`: the channel its transition gives, and the emitted list on its port. -/
theorem exec_of_okReply {s : State} {c c' : Channel} {i : Instr} {l : List Datum}
    (h : s.channels[i.channel]? = some c) (hu : unitStep i c = (c', okReply l)) :
    exec i s = .next { s with
      channels := s.channels.set i.channel c',
      responses := s.responses ++ [⟨i.channel, i.unit, .ok, l⟩] } := by
  rw [exec_of_some i h, hu]
  rfl

/-! The block `blk(mode, a, b)`. -/

theorem getElem?_blk_interp (a b : Num) {r : Nat} (hr : r < 32) :
    (blk .interp a b)[r]? = some (a + (b - a) * (r : Num) / 32) := by
  rw [blk, List.getElem?_map, List.getElem?_range hr]
  rfl

theorem getElem?_blk_extrap (a b : Num) {r : Nat} (hr : r < 32) :
    (blk .extrap a b)[r]? = some (3 * a - 2 * b) :=
  List.getElem?_replicate_of_lt hr

/-- The interpolated element as a weighted mean of the two samples. -/
theorem interp_eq_weighted (a b r : Num) :
    a + (b - a) * r / 32 = a * (32 - r) / 32 + b * r / 32 := by
  ring

/-- Interpolation from `a` reaches another sample `b` at weight 32 only. -/
theorem interp_eq_right_iff {a b : Num} (hab : a ≠ b) (r : Num) :
    a + (b - a) * r / 32 = b ↔ r = 32 := by
  have hne : b - a ≠ 0 := sub_ne_zero.mpr hab.symm
  calc a + (b - a) * r / 32 = b ↔ (b - a) * r = (b - a) * 32 := by
        constructor <;> intro h <;> linarith
    _ ↔ r = 32 := mul_right_inj' hne

/-- The weights of a block stop at 31, so the next sample is not in it. -/
theorem not_mem_blk_interp {a b : Num} (hab : a ≠ b) : b ∉ blk .interp a b := by
  intro hmem
  obtain ⟨r, hr, hb⟩ := List.mem_map.mp hmem
  have hlt : r < 32 := List.mem_range.mp hr
  have h32 : (r : Num) = 32 := (interp_eq_right_iff hab r).mp hb
  have hr32 : r = 32 := by exact_mod_cast h32
  omega

/-- Settles O16: the weight 0 gives `a`, and `b` would need the weight 32. -/
theorem blockElementsAreTheFormulas : Obligations.BlockElementsAreTheFormulas := by
  intro a b m
  refine ⟨blk_length m a b, ?_, not_mem_blk_interp, fun r hr => ?_⟩
  · simpa using getElem?_blk_interp a b (r := 0) (by decide)
  · exact ⟨getElem?_blk_interp a b hr, interp_eq_weighted a b r, getElem?_blk_extrap a b hr⟩

/-! The blocks as emitted lists. -/

theorem nums_blk_interp (a b : Num) :
    nums (blk .interp a b)
      = (List.range 32).map fun (r : Nat) => .num (a + (b - a) * (r : Num) / 32) :=
  List.map_map

theorem nums_replicate (n : Nat) (v : Num) : nums (List.replicate n v) = List.replicate n (.num v) :=
  List.map_replicate

theorem nums_blk_extrap (a b : Num) :
    nums (blk .extrap a b) = List.replicate 32 (.num (3 * a - 2 * b)) :=
  nums_replicate 32 _

/-! The transitions of the channel, by the branches of their rules. -/

section
variable {ch : Nat} {c : Channel}

theorem unitStep_upsPush_idle (v : Num) (hrun : c.ups.run = false) :
    unitStep (.upsPush ch v) c = failWith c .errIdle := by
  rw [unitStep, upsPushUnit_idle v hrun]
  rfl

theorem unitStep_upsPush_first (v : Num) (hrun : c.ups.run = true) (hvalid : c.ups.valid = false) :
    unitStep (.upsPush ch v) c
      = ({ c with ups := { c.ups with valid := true, prev := v } }, okReply []) := by
  rw [unitStep, upsPushUnit_open v hrun, hvalid]
  rfl

theorem unitStep_upsPush_later (v : Num) (hrun : c.ups.run = true) (hvalid : c.ups.valid = true) :
    unitStep (.upsPush ch v) c
      = ({ c with ups := { c.ups with prev := v } }, okReply (nums (blk c.ups.mode c.ups.prev v))) := by
  rw [unitStep, upsPushUnit_open v hrun, if_pos hvalid, ← hvalid]

theorem unitStep_upsFlush_idle (hrun : c.ups.run = false) :
    unitStep (.upsFlush ch) c = failWith c .errIdle := by
  rw [unitStep, upsFlushUnit_idle hrun]
  rfl

theorem unitStep_upsFlush_open (hrun : c.ups.run = true) :
    unitStep (.upsFlush ch) c
      = ({ c with ups := { c.ups with run := false, valid := false, prev := 0 } },
        okReply (if c.ups.valid then List.replicate 32 (.num c.ups.prev) else [])) := by
  rw [unitStep, upsFlushUnit_open hrun, nums_replicate]

end

/-- Settles O15: an idle unit takes the error, the first push only holds its sample, and a later push emits
the held sample's block, read off by the mode of the pass. -/
theorem upsPushEmitsThePreviousBlock : Obligations.UpsPushEmitsThePreviousBlock := by
  intro s ch c v hc
  refine ⟨fun hrun => ?_, fun hrun hvalid => ?_, fun hrun hvalid hmode => ?_,
    fun hrun hvalid hmode => ?_⟩
  · exact exec_of_failWith hc (unitStep_upsPush_idle v hrun)
  · exact exec_of_okReply hc (unitStep_upsPush_first v hrun hvalid)
  · rw [← nums_blk_interp, ← hmode]
    exact exec_of_okReply hc (unitStep_upsPush_later v hrun hvalid)
  · rw [← nums_blk_extrap, ← hmode]
    exact exec_of_okReply hc (unitStep_upsPush_later v hrun hvalid)

/-- Settles O17: an idle unit takes the error; an open one closes and emits what it holds. -/
theorem upsFlushEmitsTheLastBlock : Obligations.UpsFlushEmitsTheLastBlock := by
  intro s ch c hc
  exact ⟨fun hrun => exec_of_failWith hc (unitStep_upsFlush_idle hrun),
    fun hrun => exec_of_okReply hc (unitStep_upsFlush_open hrun)⟩

/-- Settles O14: the transition reads no register of the unit, so an open pass makes no difference. -/
theorem upsStartOpensAFreshPass : Obligations.UpsStartOpensAFreshPass := by
  intro s ch c m hc
  exact exec_of_okReply (i := .upsStart ch m) hc rfl

end Sys2Proof.Proofs
end

section
/-! The modulator: the next state of each of its commands, `DSM.STEP` by the sign its comparator tests
(42_modulator.md R122 to R126). -/

namespace Sys2Proof.Proofs

open Sys2Proof.Machine Sys2Proof.Laws

/-! One step of each order, by the pulse its comparator gives. -/

section
variable {d : Dsm} {x : Num}

theorem dsmStepOrder1_high (h : 0 ≤ x + d.error) :
    dsmStepOrder1 x d = ({ d with error := x + d.error - 32768 }, okReply [.pulse true]) := by
  simp only [dsmStepOrder1, pv_comparatorOrder1_nonneg h, pv_true]
  rfl

theorem dsmStepOrder1_low (h : x + d.error < 0) :
    dsmStepOrder1 x d = ({ d with error := x + d.error + 32768 }, okReply [.pulse false]) := by
  simp only [dsmStepOrder1, pv_comparatorOrder1_neg h, pv_false, sub_neg_eq_add]
  rfl

theorem dsmStepOrder2_high (h : 0 < d.integrator2) :
    dsmStepOrder2 x d =
      ({ d with
          integrator := d.integrator + x - 32768
          integrator2 := d.integrator2 - 32768 + (d.integrator + x - 32768) },
        okReply [.pulse true]) := by
  simp only [dsmStepOrder2, comparatorOrder2_pos h, pv_true]
  rfl

theorem dsmStepOrder2_low (h : d.integrator2 ≤ 0) :
    dsmStepOrder2 x d =
      ({ d with
          integrator := d.integrator + x + 32768
          integrator2 := d.integrator2 + 32768 + (d.integrator + x + 32768) },
        okReply [.pulse false]) := by
  simp only [dsmStepOrder2, comparatorOrder2_nonpos h, pv_false, sub_neg_eq_add]
  rfl

end

/-! The transitions of the channel, by the branches of their rules. -/

section
variable {ch : Nat} {c : Channel}

theorem unitStep_dsmStep_first {x : Num} {d : Dsm} {l : List Datum} (hrun : c.dsm.run = true)
    (hord : c.dsm.order = .first) (hd : dsmStepOrder1 x c.dsm = (d, okReply l)) :
    unitStep (.dsmStep ch x) c = ({ c with dsm := d }, okReply l) := by
  rw [unitStep, dsmStepUnit_first x hrun hord, hd]

theorem unitStep_dsmStep_second {x : Num} {d : Dsm} {l : List Datum} (hrun : c.dsm.run = true)
    (hord : c.dsm.order = .second) (hd : dsmStepOrder2 x c.dsm = (d, okReply l)) :
    unitStep (.dsmStep ch x) c = ({ c with dsm := d }, okReply l) := by
  rw [unitStep, dsmStepUnit_second x hrun hord, hd]

theorem unitStep_dsmStop_idle (hrun : c.dsm.run = false) :
    unitStep (.dsmStop ch) c = failWith c .errIdle := by
  rw [unitStep, dsmStopUnit_idle hrun]
  rfl

theorem unitStep_dsmStop_open (hrun : c.dsm.run = true) :
    unitStep (.dsmStop ch) c
      = ({ c with dsm := { c.dsm with run := false, error := 0, integrator := 0, integrator2 := 0 } },
        okReply []) := by
  rw [unitStep, dsmStopUnit_open hrun]

end

/-- Settles O19, by the sign of `x + dsm.error`. -/
theorem dsmStepFirstOrder : Obligations.DsmStepFirstOrder := by
  intro s ch c x hc hrun hord
  exact ⟨fun hge => exec_of_okReply hc (unitStep_dsmStep_first hrun hord (dsmStepOrder1_high hge)),
    fun hlt => exec_of_okReply hc (unitStep_dsmStep_first hrun hord (dsmStepOrder1_low hlt))⟩

/-- Settles O20, by the sign of `dsm.integrator2` before the step. -/
theorem dsmStepSecondOrder : Obligations.DsmStepSecondOrder := by
  intro s ch c x hc hrun hord
  exact ⟨fun hgt => exec_of_okReply hc (unitStep_dsmStep_second hrun hord (dsmStepOrder2_high hgt)),
    fun hle => exec_of_okReply hc (unitStep_dsmStep_second hrun hord (dsmStepOrder2_low hle))⟩

/-- Settles O18: the transition reads no register of the unit, so an open pass makes no difference. -/
theorem dsmStartOpensAFreshPass : Obligations.DsmStartOpensAFreshPass := by
  intro s ch c n hc
  exact exec_of_okReply (i := .dsmStart ch n) hc rfl

/-- Settles O21: an idle unit takes the error; an open one closes and has no pending output. -/
theorem dsmStopClosesThePass : Obligations.DsmStopClosesThePass := by
  intro s ch c hc
  exact ⟨fun hrun => exec_of_failWith hc (unitStep_dsmStop_idle hrun),
    fun hrun => exec_of_okReply hc (unitStep_dsmStop_open hrun)⟩

end Sys2Proof.Proofs
end

section
/-! The demodulator: the next state of each of its commands, `DEC.STEP` by the place of its pulse in the
block of 32 (43_demodulator.md R140, R141, R143). -/

namespace Sys2Proof.Proofs

open Sys2Proof.Machine Sys2Proof.Laws

/-- The three stages by the values they write, in the order R141 assigns them: stage 2 reads the new `y1`
and stage 3 the new `y2`. -/
theorem filterPulse_eq {b : Pulse} {d : Dec} {v y1 y2 y3 : Num}
    (hv : v = if b then 32768 else -32768) (h1 : y1 = d.y1 * (1 - d.k1) + d.k1 * v)
    (h2 : y2 = d.y2 * (1 - d.k2) + d.k2 * y1) (h3 : y3 = d.y3 * (1 - d.k3) + d.k3 * y2) :
    filterPulse b d = { d with y1 := y1, y2 := y2, y3 := y3 } := by
  subst hv h1 h2 h3
  rfl

/-! The transitions of the channel, by the branches of their rules. -/

section
variable {ch : Nat} {c : Channel}

theorem unitStep_decStart_legal {k1 k2 k3 : Num}
    (hk : (0 < k1 ∧ k1 < 1) ∧ (0 < k2 ∧ k2 < 1) ∧ (0 < k3 ∧ k3 < 1)) :
    unitStep (.decStart ch k1 k2 k3) c
      = ({ c with dec :=
          { run := true, k1 := k1, k2 := k2, k3 := k3, y1 := 0, y2 := 0, y3 := 0, period := 0, cnt := 0 } },
        okReply []) := by
  rw [unitStep, decStartUnit_legal c.dec ((coefficientsLegal_iff k1 k2 k3).mpr hk)]

theorem unitStep_decStart_illegal {k1 k2 k3 : Num}
    (hk : ¬ ((0 < k1 ∧ k1 < 1) ∧ (0 < k2 ∧ k2 < 1) ∧ (0 < k3 ∧ k3 < 1))) :
    unitStep (.decStart ch k1 k2 k3) c = failWith c .errParam := by
  rw [← coefficientsLegal_iff, Bool.not_eq_true] at hk
  rw [unitStep, decStartUnit_illegal c.dec hk]
  rfl

theorem unitStep_decStep_idle (b : Pulse) (hrun : c.dec.run = false) :
    unitStep (.decStep ch b) c = failWith c .errIdle := by
  rw [unitStep, decStepUnit_idle b hrun]
  rfl

theorem unitStep_decStep_partial {b : Pulse} {d : Dec} (hrun : c.dec.run = true)
    (hd : filterPulse b c.dec = d) (hcnt : d.cnt + 1 ≠ 32) :
    unitStep (.decStep ch b) c
      = ({ c with dec := { d with period := d.period + d.y3, cnt := d.cnt + 1 } }, okReply []) := by
  rw [unitStep, decStepUnit_open b hrun, hd, decimate_partial hcnt]

theorem unitStep_decStep_complete {b : Pulse} {d : Dec} (hrun : c.dec.run = true)
    (hd : filterPulse b c.dec = d) (hcnt : d.cnt + 1 = 32) :
    unitStep (.decStep ch b) c
      = ({ c with dec := { d with period := 0, cnt := 0 } },
        okReply [.num ((d.period + d.y3) / 32)]) := by
  rw [unitStep, decStepUnit_open b hrun, hd, decimate_complete hcnt]
  rfl

theorem unitStep_decStop_idle (hrun : c.dec.run = false) :
    unitStep (.decStop ch) c = failWith c .errIdle := by
  rw [unitStep, decStopUnit_idle hrun]
  rfl

theorem unitStep_decStop_open (hrun : c.dec.run = true) :
    unitStep (.decStop ch) c
      = ({ c with dec :=
          { c.dec with run := false, y1 := 0, y2 := 0, y3 := 0, period := 0, cnt := 0 } },
        okReply []) := by
  rw [unitStep, decStopUnit_open hrun]

end

/-- Settles O22, by whether all three coefficients are legal; neither branch reads a register of the unit,
so an open pass makes no difference. -/
theorem decStartOpensAFreshPass : Obligations.DecStartOpensAFreshPass := by
  intro s ch c k1 k2 k3 hc
  exact ⟨fun hk => exec_of_okReply hc (unitStep_decStart_legal hk),
    fun hk => exec_of_failWith hc (unitStep_decStart_illegal hk)⟩

/-- Settles O24: an idle unit takes the error; in an open pass the three stages write `y1`, `y2`, `y3`, and
the new `y3` is added to the block or, on its 32nd pulse, closes it. -/
theorem decStepFiltersAndDecimates : Obligations.DecStepFiltersAndDecimates := by
  intro s ch c b v y1 y2 y3 hc hv h1 h2 h3
  have hfilter : filterPulse b c.dec = { c.dec with y1 := y1, y2 := y2, y3 := y3 } :=
    filterPulse_eq hv h1 h2 h3
  refine ⟨fun hrun => ?_, fun hrun hcnt => ?_, fun hrun hcnt => ?_⟩
  · exact exec_of_failWith hc (unitStep_decStep_idle b hrun)
  · exact exec_of_okReply hc (unitStep_decStep_partial hrun hfilter hcnt)
  · exact exec_of_okReply hc (unitStep_decStep_complete hrun hfilter hcnt)

/-- Settles O25: an idle unit takes the error; an open one closes without emitting, whatever its block
holds. -/
theorem decStopDropsThePartialBlock : Obligations.DecStopDropsThePartialBlock := by
  intro s ch c hc
  exact ⟨fun hrun => exec_of_failWith hc (unitStep_decStop_idle hrun),
    fun hrun => exec_of_okReply hc (unitStep_decStop_open hrun)⟩

end Sys2Proof.Proofs
end

section
/-! The illegal transactions and the one answer they get (60_exceptions.md R182). -/

namespace Sys2Proof.Proofs

open Sys2Proof.Machine Sys2Proof.Laws

/-- A byte that no row of R77 selects is no command's. -/
theorem mnemonicOf_eq_none_of_no_row {b : Byte} (h : ∀ row ∈ opcodeMap, b &&& row.mask ≠ row.value) :
    mnemonicOf b = none := by
  have hfind : opcodeMap.find? (rowSelects b) = none :=
    List.find?_eq_none.mpr fun row hrow => by simpa [rowSelects] using h row hrow
  rw [mnemonicOf, hfind, Option.map_none]

/-- A transaction that decodes to a command carries the `unit` field of the port it arrived on. -/
theorem unitField_of_decode_ok {t : Transaction} {i : Instr} (h : decode t = .ok i) :
    unitField t.cmd = unitCode t.port := by
  unfold decode at h
  split at h
  · cases h
  · next n hn =>
    split at h
    · next hport => exact hport ▸ (mnemonicOf_fields t.cmd n hn).1
    · cases h

/-- A byte without a row, or with another unit's field, holds no command. -/
theorem decode_error_of_reserved_or_wrongPort {t : Transaction}
    (h : (∀ row ∈ opcodeMap, t.cmd &&& row.mask ≠ row.value) ∨ unitField t.cmd ≠ unitCode t.port) :
    ∃ e, decode t = .error e := by
  obtain hrow | hunit := h
  · exact ⟨_, decode_of_mnemonicOf_none (mnemonicOf_eq_none_of_no_row hrow)⟩
  · cases hd : decode t with
    | error e => exact ⟨e, rfl⟩
    | ok i => exact absurd (unitField_of_decode_ok hd) hunit

/-- The step on an illegal transaction: the input taken, one more response, no register written. -/
theorem step_of_decode_error {s : State} {t : Transaction} {rest : List Input} {c : Channel} {e : Illegal}
    (hi : s.inputs = .command t :: rest) (hc : s.channels[t.channel]? = some c)
    (hd : decode t = .error e) :
    step s = .next { s with
      inputs := rest, responses := s.responses ++ [⟨t.channel, t.port, .errIllegal, []⟩] } := by
  have hc' : (s.withInputs rest).channels[t.channel]? = some c := hc
  rw [step_of_cons hi, performInput, performTransaction_of_error _ hd, rejectIllegal,
    onChannel_of_some _ _ hc', failWith_regs, putChannel_same hc']
  rfl

/-- Settles O9: such a transaction does not decode, and the step on it answers `ERR_ILLEGAL`. -/
theorem illegalTransactionIsAnsweredErrIllegal : Obligations.IllegalTransactionIsAnsweredErrIllegal := by
  intro s t rest c hi hc hillegal
  obtain ⟨e, hd⟩ := decode_error_of_reserved_or_wrongPort hillegal
  exact step_of_decode_error hi hc hd

end Sys2Proof.Proofs
end

section
/-! The status of every command, decided from the command and the `run` flags alone (60_exceptions.md R183,
R184, R189), and what an error status says of the transition. -/

namespace Sys2Proof.Proofs

open Sys2Proof.Machine Sys2Proof.Laws

/-! The status as a function of its own, and when it is which error. -/

/-- The status of a data or stop command, by its unit's `run` flag (R183). -/
def runStatus (run : Bool) : Status := if run then .ok else .errIdle

theorem runStatus_eq_errIdle_iff {run : Bool} : runStatus run = .errIdle ↔ run = false := by
  cases run <;> simp [runStatus]

theorem runStatus_ne_errParam (run : Bool) : runStatus run ≠ .errParam := by
  cases run <;> simp [runStatus]

/-- The status of `DEC.START` (R184). -/
def coefficientStatus (k1 k2 k3 : Num) : Status :=
  if (0 < k1 ∧ k1 < 1) ∧ (0 < k2 ∧ k2 < 1) ∧ (0 < k3 ∧ k3 < 1) then .ok else .errParam

theorem coefficientStatus_ne_errIdle (k1 k2 k3 : Num) : coefficientStatus k1 k2 k3 ≠ .errIdle := by
  unfold coefficientStatus
  split <;> simp

theorem coefficientStatus_eq_errParam_iff {k1 k2 k3 : Num} :
    coefficientStatus k1 k2 k3 = .errParam ↔
      k1 ≤ 0 ∨ 1 ≤ k1 ∨ k2 ≤ 0 ∨ 1 ≤ k2 ∨ k3 ≤ 0 ∨ 1 ≤ k3 := by
  have hneg : coefficientStatus k1 k2 k3 = .errParam ↔
      ¬ ((0 < k1 ∧ k1 < 1) ∧ (0 < k2 ∧ k2 < 1) ∧ (0 < k3 ∧ k3 < 1)) := by
    simp [coefficientStatus]
  rw [hneg]
  simp only [not_and_or, not_lt, or_assoc]

/-- The status R189 gives a decoded command on channel `c`. -/
def tabledStatus (i : Instr) (c : Channel) : Status :=
  match i with
  | .upsStart _ _ => .ok
  | .upsPush _ _ => runStatus c.ups.run
  | .upsFlush _ => runStatus c.ups.run
  | .dsmStart _ _ => .ok
  | .dsmStep _ _ => runStatus c.dsm.run
  | .dsmStop _ => runStatus c.dsm.run
  | .decStart _ k1 k2 k3 => coefficientStatus k1 k2 k3
  | .decStep _ _ => runStatus c.dec.run
  | .decStop _ => runStatus c.dec.run

/-- `ERR_IDLE` is for the data and stop commands of an idle unit. -/
theorem tabledStatus_eq_errIdle_iff (i : Instr) (c : Channel) :
    tabledStatus i c = .errIdle ↔ idleFor i c := by
  cases i with
  | upsStart _ _ | dsmStart _ _ => simp [tabledStatus, idleFor]
  | decStart _ k1 k2 k3 => exact iff_of_false (coefficientStatus_ne_errIdle k1 k2 k3) id
  | upsPush _ _ | upsFlush _ | dsmStep _ _ | dsmStop _ | decStep _ _ | decStop _ =>
    exact runStatus_eq_errIdle_iff

/-- The commands whose parameter is out of range (R184). -/
def ParameterOutOfRange : Instr → Prop
  | .decStart _ k1 k2 k3 => k1 ≤ 0 ∨ 1 ≤ k1 ∨ k2 ≤ 0 ∨ 1 ≤ k2 ∨ k3 ≤ 0 ∨ 1 ≤ k3
  | _ => False

/-- `ERR_PARAM` is for those commands. -/
theorem tabledStatus_eq_errParam_iff (i : Instr) (c : Channel) :
    tabledStatus i c = .errParam ↔ ParameterOutOfRange i := by
  cases i with
  | upsStart _ _ | dsmStart _ _ => simp [tabledStatus, ParameterOutOfRange]
  | decStart _ _ _ _ => exact coefficientStatus_eq_errParam_iff
  | upsPush _ _ | upsFlush _ | dsmStep _ _ | dsmStop _ | decStep _ _ | decStop _ =>
    exact iff_of_false (runStatus_ne_errParam _) id

/-! The transitions answer the status of the table. -/

/-- A transition that takes `ERR_IDLE` with the `run` flag 0 and succeeds with it 1. -/
theorem status_eq_runStatus {ρ : Type} {run : Bool} {regs : ρ} {p : ρ × Reply}
    (hidle : run = false → p = failWith regs .errIdle) (hopen : run = true → p.2.status = .ok) :
    p.2.status = runStatus run := by
  cases run with
  | false => rw [hidle rfl]; rfl
  | true => exact hopen rfl

theorem upsPushUnit_status (v : Num) (u : Ups) : (upsPushUnit v u).2.status = runStatus u.run :=
  status_eq_runStatus (upsPushUnit_idle v) fun hrun => by rw [upsPushUnit_open v hrun, okReply_status]

theorem upsFlushUnit_status (u : Ups) : (upsFlushUnit u).2.status = runStatus u.run :=
  status_eq_runStatus upsFlushUnit_idle fun hrun => by rw [upsFlushUnit_open hrun, okReply_status]

theorem dsmStepUnit_status (x : Num) (d : Dsm) : (dsmStepUnit x d).2.status = runStatus d.run :=
  status_eq_runStatus (dsmStepUnit_idle x) fun hrun => by
    cases hord : d.order with
    | first => rw [dsmStepUnit_first x hrun hord]; rfl
    | second => rw [dsmStepUnit_second x hrun hord]; rfl

theorem dsmStopUnit_status (d : Dsm) : (dsmStopUnit d).2.status = runStatus d.run :=
  status_eq_runStatus dsmStopUnit_idle fun hrun => by rw [dsmStopUnit_open hrun, okReply_status]

theorem decStartUnit_status (k1 k2 k3 : Num) (d : Dec) :
    (decStartUnit k1 k2 k3 d).2.status = coefficientStatus k1 k2 k3 := by
  simp only [coefficientStatus, ← coefficientsLegal_iff]
  cases hk : coefficientsLegal k1 k2 k3 with
  | false => rw [decStartUnit_illegal d hk]; rfl
  | true => rw [decStartUnit_legal d hk]; rfl

theorem decStepUnit_status (b : Pulse) (d : Dec) : (decStepUnit b d).2.status = runStatus d.run :=
  status_eq_runStatus (decStepUnit_idle b) fun hrun => by
    rw [decStepUnit_open b hrun]
    by_cases hcnt : (filterPulse b d).cnt + 1 = 32
    · rw [decimate_complete hcnt, okReply_status]
    · rw [decimate_partial hcnt, okReply_status]

theorem decStopUnit_status (d : Dec) : (decStopUnit d).2.status = runStatus d.run :=
  status_eq_runStatus decStopUnit_idle fun hrun => by rw [decStopUnit_open hrun, okReply_status]

/-- Every command answers the status of the table. -/
theorem unitStep_status (i : Instr) (c : Channel) : (unitStep i c).2.status = tabledStatus i c := by
  cases i with
  | upsStart _ _ => rfl
  | upsPush _ v => exact upsPushUnit_status v c.ups
  | upsFlush _ => exact upsFlushUnit_status c.ups
  | dsmStart _ _ => rfl
  | dsmStep _ x => exact dsmStepUnit_status x c.dsm
  | dsmStop _ => exact dsmStopUnit_status c.dsm
  | decStart _ k1 k2 k3 => exact decStartUnit_status k1 k2 k3 c.dec
  | decStep _ b => exact decStepUnit_status b c.dec
  | decStop _ => exact decStopUnit_status c.dec

/-- An answer with an error status is the error response (R186, R190). -/
theorem Answers.eq_failWith {ρ : Type} {u : UnitName} {regs : ρ} {p : ρ × Reply} {st : Status}
    (h : Answers u regs p) (hst : p.2.status = st) (herr : st ≠ .ok) : p = failWith regs st := by
  obtain ⟨regs', status, emitted⟩ := p
  subst hst
  obtain ⟨rfl, rfl⟩ := h.noEffect herr
  rfl

/-- The step on a transaction that decodes to a command: that command's transition, its reply on the port
the transaction arrived on. -/
theorem step_of_decode_ok {s : State} {t : Transaction} {rest : List Input} {c : Channel} {i : Instr}
    (hi : s.inputs = .command t :: rest) (hc : s.channels[t.channel]? = some c) (hd : decode t = .ok i) :
    step s = .next (((s.withInputs rest).putChannel t.channel (unitStep i c).1).respond
      t.channel t.port (unitStep i c).2) := by
  obtain ⟨hunit, hchannel⟩ := decode_port hd
  rw [step_of_cons hi, performInput, performTransaction_of_ok _ hd, exec_eq_onChannel, hunit, hchannel]
  exact onChannel_of_some _ _ hc

/-- Settles O28: decoding comes first, and every command that decodes answers the status of the table. -/
theorem statusIsDecidedAsTabled : Obligations.StatusIsDecidedAsTabled := by
  refine ⟨rfl, rfl, rfl, rfl, fun s x rest c hi hc => ?_⟩
  cases hd : decode x with
  | error e => exact ⟨_, _, step_of_decode_error hi hc hd, rfl, rfl⟩
  | ok i =>
    refine ⟨_, _, step_of_decode_ok hi hc hd, rfl, ?_⟩
    have hstatus := unitStep_status i c
    cases i <;> exact hstatus

/-- Settles O26: a command of an idle unit has the status `ERR_IDLE` and so takes the error; the status of any
other command is another. -/
theorem idleUnitAnswersErrIdle : Obligations.IdleUnitAnswersErrIdle := by
  intro s i c hc
  refine ⟨fun hidle => ?_, fun hopen => ?_⟩
  · have hst : tabledStatus i c = .errIdle := (tabledStatus_eq_errIdle_iff i c).mpr hidle
    have hfail := (unitStep_answers i c).eq_failWith ((unitStep_status i c).trans hst) (by decide)
    exact exec_of_failWith hc hfail
  · refine ⟨_, _, exec_of_some i hc, rfl, fun hst => hopen ?_⟩
    exact (tabledStatus_eq_errIdle_iff i c).mp ((unitStep_status i c).symm.trans hst)

/-- Settles O23: the status is `ERR_PARAM` exactly for a parameter out of range, and then the command takes
the error, which writes back the channel it read. -/
theorem errParamIsOnlyForCoefficients : Obligations.ErrParamIsOnlyForCoefficients := by
  intro s i c hc
  refine ⟨_, _, exec_of_some i hc, rfl, ?_, fun hst => ?_⟩
  · have hiff := unitStep_status i c ▸ tabledStatus_eq_errParam_iff i c
    cases i <;> exact hiff
  · have hfail := (unitStep_answers i c).eq_failWith hst (by decide)
    rw [hfail, failWith_regs, putChannel_same hc]
    exact ⟨rfl, rfl⟩

end Sys2Proof.Proofs
end

section
/-! Encoding and decoding are inverse: which transactions decode, and to what (30_encoding.md R77, R80, R83). -/

namespace Sys2Proof.Proofs

open Sys2Proof.Laws

/-- What decodes to what: one of a command's own bytes, on the port of its unit, to that command with its
operands assembled. -/
theorem decode_eq_ok_iff {t : Transaction} {i : Instr} :
    decode t = .ok i ↔ ∃ n, t.cmd ∈ bytesOf n ∧ unitOf n = t.port ∧ assembleOperands t n = i := by
  constructor
  · intro h
    unfold decode at h
    split at h
    · cases h
    · next n hn =>
      split at h
      · next hport => exact ⟨n, (mnemonicOf_bytes _ n).mp hn, hport, Except.ok.inj h⟩
      · cases h
  · rintro ⟨n, hbyte, hport, rfl⟩
    obtain ⟨ch, port, b, x, y, z⟩ := t
    obtain rfl : unitOf n = port := hport
    exact decode_of_mem_bytesOf n ch x y z hbyte

/-- The row of the opcode map a command belongs to. -/
def mnemonicFor : Instr → Mnemonic
  | .upsStart _ _ => .upsStart
  | .upsPush _ _ => .upsPush
  | .upsFlush _ => .upsFlush
  | .dsmStart _ _ => .dsmStart
  | .dsmStep _ _ => .dsmStep
  | .dsmStop _ => .dsmStop
  | .decStart _ _ _ _ => .decStart
  | .decStep _ _ => .decStep
  | .decStop _ => .decStop

theorem unitOf_mnemonicFor (i : Instr) : unitOf (mnemonicFor i) = i.unit := by
  cases i <;> rfl

/-- The encoder's byte is one of the command's own, at either value of the argument bit. -/
theorem encodeByte_mem_bytesOf (i : Instr) : encodeByte i ∈ bytesOf (mnemonicFor i) := by
  cases i with
  | upsStart _ _ => exact (by decide : ∀ a, commandByte .ups opStart a ∈ bytesOf .upsStart) _
  | upsPush _ _ => exact (by decide : commandByte .ups opData false ∈ bytesOf .upsPush)
  | upsFlush _ => exact (by decide : commandByte .ups opStop false ∈ bytesOf .upsFlush)
  | dsmStart _ _ => exact (by decide : ∀ a, commandByte .dsm opStart a ∈ bytesOf .dsmStart) _
  | dsmStep _ _ => exact (by decide : commandByte .dsm opData false ∈ bytesOf .dsmStep)
  | dsmStop _ => exact (by decide : commandByte .dsm opStop false ∈ bytesOf .dsmStop)
  | decStart _ _ _ _ => exact (by decide : commandByte .dec opStart false ∈ bytesOf .decStart)
  | decStep _ _ => exact (by decide : ∀ a, commandByte .dec opData a ∈ bytesOf .decStep) _
  | decStop _ => exact (by decide : commandByte .dec opStop false ∈ bytesOf .decStop)

/-- The argument bit of the encoder's byte. -/
theorem argBit_encode (i : Instr) : argBit (encode i).cmd = argOf i :=
  (Fields.commandByte_fields i.unit (opCode i) (argOf i)).2.2.2

/-- Operand assembly gives back the operands the encoder put into the byte and the lanes. -/
theorem assembleOperands_encode (i : Instr) : assembleOperands (encode i) (mnemonicFor i) = i := by
  have harg := argBit_encode i
  cases i with
  | upsStart _ m => simp only [mnemonicFor, assembleOperands, harg]; cases m <;> rfl
  | dsmStart _ n => simp only [mnemonicFor, assembleOperands, harg]; cases n <;> rfl
  | decStep _ b => simp only [mnemonicFor, assembleOperands, harg]; rfl
  | upsPush _ _ | upsFlush _ | dsmStep _ _ | dsmStop _ | decStart _ _ _ _ | decStop _ => rfl

/-- Settles O1: the encoder's byte selects the command's row, the port is its unit's, and operand assembly
gives the operands back. -/
theorem decodeOfEncodeIsTheCommand : Obligations.DecodeOfEncodeIsTheCommand := by
  intro i
  exact decode_eq_ok_iff.mpr
    ⟨mnemonicFor i, encodeByte_mem_bytesOf i, unitOf_mnemonicFor i, assembleOperands_encode i⟩

/-- The encoder gives back the byte whose operands were assembled. -/
theorem encodeByte_assembleOperands {t : Transaction} {n : Mnemonic} (h : t.cmd ∈ bytesOf n) :
    encodeByte (assembleOperands t n) = t.cmd := by
  generalize hb : t.cmd = b at h
  cases n with
  | upsStart | dsmStart | decStep =>
    simp only [encodeByte, assembleOperands, Instr.unit, opCode, argOf, hb]
    obtain rfl | rfl := List.mem_pair.mp h <;> decide
  | upsPush | upsFlush | dsmStep | dsmStop | decStart | decStop =>
    rw [List.mem_singleton.mp h]
    simp only [encodeByte, assembleOperands, Instr.unit, opCode, argOf]
    decide

/-- Settles O2: channel and port by the decoder's own check, the byte by the row it selected, the lanes by
operand assembly. -/
theorem decodedTransactionIsTheEncoding : Obligations.DecodedTransactionIsTheEncoding := by
  intro t i h
  obtain ⟨hunit, hchannel⟩ := decode_port h
  obtain ⟨n, hbyte, -, rfl⟩ := decode_eq_ok_iff.mp h
  refine ⟨hchannel.symm, hunit.symm, (encodeByte_assembleOperands hbyte).symm, ?_⟩
  cases n <;> simp [assembleOperands]

/-- Two transactions on one port with one byte decode alike where operand assembly does not tell them
apart. -/
theorem decode_ok_of_assembleOperands_eq {t t' : Transaction} {i : Instr} (h : decode t = .ok i)
    (hcmd : t'.cmd = t.cmd) (hport : t'.port = t.port)
    (hops : assembleOperands t' (mnemonicFor i) = assembleOperands t (mnemonicFor i)) :
    decode t' = .ok i := by
  obtain ⟨n, hbyte, hunit, rfl⟩ := decode_eq_ok_iff.mp h
  have hn : mnemonicFor (assembleOperands t n) = n := by cases n <;> rfl
  rw [hn] at hops
  exact decode_eq_ok_iff.mpr ⟨n, hcmd ▸ hbyte, hport ▸ hunit, hops⟩

/-- Settles O3: operand assembly reads only the lanes its command uses. -/
theorem unusedLanesAreIgnored : Obligations.UnusedLanesAreIgnored := by
  intro t i a b c h
  cases i with
  | decStart _ _ _ _ => trivial
  | upsStart _ _ | upsPush _ _ | upsFlush _ | dsmStart _ _ | dsmStep _ _ | dsmStop _ | decStep _ _ | decStop _ =>
    exact decode_ok_of_assembleOperands_eq h rfl rfl rfl

/-! The illegal transactions. -/

/-- The fields that no defined byte has, whatever the port (R80): a reserved unit, `op` or `z`, or the
argument bit set in a command without one. -/
def ReservedFields (b : Byte) : Prop :=
  unitField b = 0b00#2 ∨ opField b = 0b11#2 ∨ zField b ≠ 0b000#3
    ∨ (argBit b = true
        ∧ ¬ (unitField b = 0b01#2 ∧ opField b = 0b00#2)
        ∧ ¬ (unitField b = 0b10#2 ∧ opField b = 0b00#2)
        ∧ ¬ (unitField b = 0b11#2 ∧ opField b = 0b01#2))

/-- A property of bytes that holds of every number below 256 holds of every byte. -/
theorem forall_byte {p : Byte → Prop} (h : ∀ k : Fin 256, p (BitVec.ofFin k)) (b : Byte) : p b :=
  h b.toFin

/-- The reserved bytes by their fields. -/
theorem mnemonicOf_eq_none_iff (b : Byte) : mnemonicOf b = none ↔ ReservedFields b := by
  refine forall_byte (p := fun b => mnemonicOf b = none ↔ ReservedFields b) ?_ b
  unfold ReservedFields
  decide +kernel

theorem unitCode_injective : Function.Injective unitCode := by
  intro u v h
  cases u <;> cases v <;> revert h <;> decide

/-- A transaction is illegal when its byte is reserved or its `unit` field is not its port's. -/
theorem decode_eq_error_iff (t : Transaction) :
    (∃ e, decode t = .error e) ↔ mnemonicOf t.cmd = none ∨ unitField t.cmd ≠ unitCode t.port := by
  constructor
  · rintro ⟨e, he⟩
    cases hn : mnemonicOf t.cmd with
    | none => exact .inl rfl
    | some n =>
      refine .inr fun hunit => ?_
      have hport : unitOf n = t.port :=
        unitCode_injective ((mnemonicOf_fields t.cmd n hn).1.symm.trans hunit)
      simp [decode, hn, hport] at he
  · rintro (hnone | hunit)
    · exact ⟨_, decode_of_mnemonicOf_none hnone⟩
    · exact decode_error_of_reserved_or_wrongPort (.inr hunit)

/-- Settles O4: the reserved bytes are known by their fields, and the last clause is the port's check. -/
theorem illegalTransactionsAreTheReservedOnes : Obligations.IllegalTransactionsAreTheReservedOnes := by
  intro t
  rw [decode_eq_error_iff, mnemonicOf_eq_none_iff]
  simp only [ReservedFields, or_assoc]

/-- Settles O5, over all 256 bytes. -/
theorem opcodeMapIsUnambiguous : Obligations.OpcodeMapIsUnambiguous :=
  ⟨forall_byte (by decide +kernel), by decide +kernel⟩

/-- Settles O7: each line is read, assembled and compared with its row of the table. -/
theorem assemblerTableGivesItsBytes : Obligations.AssemblerTableGivesItsBytes := by
  unfold Obligations.AssemblerTableGivesItsBytes
  decide +kernel

/-- Settles O56: each line is read and its byte compared with the one written. -/
theorem assemblerByteLineGivesItsByte : Obligations.AssemblerByteLineGivesItsByte := by
  unfold Obligations.AssemblerByteLineGivesItsByte
  decide +kernel

end Sys2Proof.Proofs
end

section
/-! Single steps: a command decoded and performed, the reset event, nothing issued, and a port that does not
exist (20_memory.md R60, R66, R67; 70_reset_and_hazards.md R200; log entries 6, 8, 9). -/

namespace Sys2Proof.Proofs

open Sys2Proof.Machine Sys2Proof.Laws

/-- Settles O8: the step takes the input from the front, and decoding decides what is performed. -/
theorem stepExecutesTheDecodedCommand : Obligations.StepExecutesTheDecodedCommand := by
  intro s t rest i hi hd
  rw [step_of_cons hi, performInput, performTransaction_of_ok _ hd]
  rfl

/-- Settles O12: the step has no input to perform. -/
theorem nothingIssuedNothingChanges : Obligations.NothingIssuedNothingChanges :=
  fun _ hi => step_of_nil hi

/-- Settles O13: every command is one transition of its channel, and there is none to make. -/
theorem noSuchPortStopsByName : Obligations.NoSuchPortStopsByName := by
  intro s i hc
  rw [exec_eq_onChannel, onChannel_of_none _ _ hc]

/-- The registers of a channel that the spec fixes at reset, at their reset values (R43, R200). -/
def AtResetValues (c : Channel) : Prop :=
  (c.ups.run = false ∧ c.ups.valid = false ∧ c.ups.prev = 0)
  ∧ (c.dsm.run = false ∧ c.dsm.error = 0 ∧ c.dsm.integrator = 0 ∧ c.dsm.integrator2 = 0)
  ∧ (c.dec.run = false ∧ c.dec.y1 = 0 ∧ c.dec.y2 = 0 ∧ c.dec.y3 = 0 ∧ c.dec.period = 0 ∧ c.dec.cnt = 0)

theorem atResetValues_reset : AtResetValues Channel.reset :=
  ⟨⟨rfl, rfl, rfl⟩, ⟨rfl, rfl, rfl, rfl⟩, ⟨rfl, rfl, rfl, rfl, rfl, rfl⟩⟩

/-- After the reset event every channel is as after reset. -/
theorem eq_reset_of_mem_resetEvent {s : State} {c : Channel} (h : c ∈ (resetEvent s).channels) :
    c = Channel.reset := by
  obtain ⟨_, -, rfl⟩ := List.mem_map.mp h
  rfl

theorem eq_reset_of_mem_reset {c : Channel} (h : c ∈ State.reset.channels) : c = Channel.reset :=
  List.eq_of_mem_replicate h

theorem reset_channels_length : State.reset.channels.length = Config.nchan :=
  List.length_replicate

/-- Settles O10: the event puts every channel at reset, whatever it was. -/
theorem resetEventClearsEveryUnit : Obligations.ResetEventClearsEveryUnit := by
  intro s rest hi
  refine ⟨resetEvent (s.withInputs rest), by rw [step_of_cons hi, performInput], rfl, rfl, ?_, ?_⟩
  · rw [resetEvent_channels, List.length_map, withInputs_channels]
  · intro c hc
    rw [eq_reset_of_mem_resetEvent hc]
    exact atResetValues_reset

/-- Settles O11: every channel of the reset state is a reset channel. -/
theorem resetStateHasTheSpecifiedValues : Obligations.ResetStateHasTheSpecifiedValues := by
  refine ⟨reset_channels_length, fun c hc => ?_⟩
  rw [eq_reset_of_mem_reset hc]
  exact atResetValues_reset

end Sys2Proof.Proofs
end

section
/-! Frames: what a command leaves unchanged, of the block and of its own unit, and that commands of different
units or channels commute (10_state.md R20, R28 to R30; 20_memory.md R61, R62; R207). -/

namespace Sys2Proof.Proofs

open Sys2Proof.Machine Sys2Proof.Laws

/-- The channel a command is addressed to, after it. -/
theorem channel_after_exec {i : Instr} {s t : State} {c c' : Channel} (h : exec i s = .next t)
    (hc : s.channels[i.channel]? = some c) (hc' : t.channels[i.channel]? = some c') :
    c' = (unitStep i c).1 := by
  rw [exec_of_some i hc] at h
  cases h
  rw [respond_channels, getChannel_putChannel _ hc] at hc'
  exact (Option.some.inj hc').symm

/-- Settles O29: the command writes back one channel, in which its transition changes one unit. -/
theorem commandTouchesOnlyItsOwnUnit : Obligations.CommandTouchesOnlyItsOwnUnit := by
  intro i s t h
  refine ⟨?_, ?_, ?_, ?_, fun c c' hc hc' => channel_after_exec h hc hc' ▸ unitStep_frame i c⟩
  all_goals obtain ⟨c, hc, rfl⟩ := exec_next h
  · rfl
  · simp
  · exact ⟨_, rfl⟩
  · exact fun ch hch => getChannel_putChannel_ne s _ hch

/-! What each data or stop command leaves of its own unit. -/

theorem upsPushUnit_keeps (v : Num) (u : Ups) :
    (upsPushUnit v u).1.run = u.run ∧ (upsPushUnit v u).1.mode = u.mode := by
  cases hrun : u.run with
  | false => rw [upsPushUnit_idle v hrun]; exact ⟨hrun, rfl⟩
  | true => rw [upsPushUnit_open v hrun]; exact ⟨hrun, rfl⟩

theorem upsFlushUnit_mode (u : Ups) : (upsFlushUnit u).1.mode = u.mode := by
  cases hrun : u.run with
  | false => rw [upsFlushUnit_idle hrun]; rfl
  | true => rw [upsFlushUnit_open hrun]

theorem dsmStepUnit_keeps (x : Num) (d : Dsm) :
    (dsmStepUnit x d).1.run = d.run ∧ (dsmStepUnit x d).1.order = d.order
    ∧ (d.order = .first → (dsmStepUnit x d).1.integrator = d.integrator
        ∧ (dsmStepUnit x d).1.integrator2 = d.integrator2)
    ∧ (d.order = .second → (dsmStepUnit x d).1.error = d.error) := by
  cases hrun : d.run with
  | false => rw [dsmStepUnit_idle x hrun]; exact ⟨hrun, rfl, fun _ => ⟨rfl, rfl⟩, fun _ => rfl⟩
  | true =>
    cases hord : d.order with
    | first =>
      rw [dsmStepUnit_first x hrun hord]
      exact ⟨hrun, hord, fun _ => ⟨rfl, rfl⟩, nofun⟩
    | second =>
      rw [dsmStepUnit_second x hrun hord]
      exact ⟨hrun, hord, nofun, fun _ => rfl⟩

theorem dsmStopUnit_order (d : Dsm) : (dsmStopUnit d).1.order = d.order := by
  cases hrun : d.run with
  | false => rw [dsmStopUnit_idle hrun]; rfl
  | true => rw [dsmStopUnit_open hrun]

/-- Closing a block or not, `decimate` writes `period` and `cnt` only. -/
theorem decimate_regs (d : Dec) : ∃ q n, (decimate d).1 = { d with period := q, cnt := n } := by
  by_cases hcnt : d.cnt + 1 = 32
  · rw [decimate_complete hcnt]; exact ⟨_, _, rfl⟩
  · rw [decimate_partial hcnt]; exact ⟨_, _, rfl⟩

theorem decStepUnit_keeps (b : Pulse) (d : Dec) :
    (decStepUnit b d).1.run = d.run ∧ (decStepUnit b d).1.k1 = d.k1
    ∧ (decStepUnit b d).1.k2 = d.k2 ∧ (decStepUnit b d).1.k3 = d.k3 := by
  cases hrun : d.run with
  | false => rw [decStepUnit_idle b hrun]; exact ⟨hrun, rfl, rfl, rfl⟩
  | true =>
    rw [decStepUnit_open b hrun]
    obtain ⟨q, n, hregs⟩ := decimate_regs (filterPulse b d)
    rw [hregs]
    exact ⟨hrun, rfl, rfl, rfl⟩

theorem decStopUnit_keeps (d : Dec) :
    (decStopUnit d).1.k1 = d.k1 ∧ (decStopUnit d).1.k2 = d.k2 ∧ (decStopUnit d).1.k3 = d.k3 := by
  cases hrun : d.run with
  | false => rw [decStopUnit_idle hrun]; exact ⟨rfl, rfl, rfl⟩
  | true => rw [decStopUnit_open hrun]; exact ⟨rfl, rfl, rfl⟩

/-- Settles O30, command by command. -/
theorem optionsChangeOnlyAtStart : Obligations.OptionsChangeOnlyAtStart := by
  intro i s t c c' h hc hc'
  obtain rfl := channel_after_exec h hc hc'
  cases i with
  | upsStart _ _ | dsmStart _ _ | decStart _ _ _ _ => trivial
  | upsPush _ v => exact upsPushUnit_keeps v c.ups
  | upsFlush _ => exact upsFlushUnit_mode c.ups
  | dsmStep _ x => exact dsmStepUnit_keeps x c.dsm
  | dsmStop _ => exact dsmStopUnit_order c.dsm
  | decStep _ b => exact decStepUnit_keeps b c.dec
  | decStop _ => exact decStopUnit_keeps c.dec

/-! Commands of different units commute: each reads and writes the registers of its unit only (R62). -/

/-- A transition of a channel that is one of unit `u` alone. -/
def ActsOn (u : UnitName) (g : Channel → Channel × Reply) : Prop :=
  match u with
  | .ups => ∃ f : Ups → Ups × Reply, g = fun c => ({ c with ups := (f c.ups).1 }, (f c.ups).2)
  | .dsm => ∃ f : Dsm → Dsm × Reply, g = fun c => ({ c with dsm := (f c.dsm).1 }, (f c.dsm).2)
  | .dec => ∃ f : Dec → Dec × Reply, g = fun c => ({ c with dec := (f c.dec).1 }, (f c.dec).2)

theorem unitStep_actsOn (i : Instr) : ActsOn i.unit (unitStep i) := by
  cases i <;> exact ⟨_, rfl⟩

/-- Transitions of two units give one channel in either order, and each replies as it would alone. -/
theorem ActsOn.commute {u v : UnitName} {g h : Channel → Channel × Reply} (hg : ActsOn u g)
    (hh : ActsOn v h) (huv : u ≠ v) (c : Channel) :
    (h (g c).1).1 = (g (h c).1).1 ∧ (h (g c).1).2 = (h c).2 := by
  cases u <;> cases v <;> obtain ⟨f, rfl⟩ := hg <;> obtain ⟨k, rfl⟩ := hh
  case ups.ups | dsm.dsm | dec.dec => exact absurd rfl huv
  all_goals exact ⟨rfl, rfl⟩

/-- What a command on channel `c` answers on its port. -/
def responseOf (i : Instr) (c : Channel) : Response :=
  ⟨i.channel, i.unit, (unitStep i c).2.status, (unitStep i c).2.emitted⟩

section
variable {i j : Instr} {s : State}

/-- One command after another on one channel, for two of its units: both reply as they would alone. -/
theorem exec_exec_of_channel_eq {c : Channel} (hch : i.channel = j.channel) (hu : i.unit ≠ j.unit)
    (hc : s.channels[i.channel]? = some c) :
    ∃ s1, exec i s = .next s1 ∧ exec j s1 = .next
      { channels := s.channels.set i.channel (unitStep j (unitStep i c).1).1, inputs := s.inputs,
        responses := s.responses ++ [responseOf i c, responseOf j c] } := by
  refine ⟨_, exec_of_some i hc, ?_⟩
  have hreply := ((unitStep_actsOn i).commute (unitStep_actsOn j) hu c).2
  rw [exec_of_some (c := (unitStep i c).1) j (by rw [← hch, respond_channels, getChannel_putChannel _ hc]), hreply]
  simp [State.putChannel, State.respond, responseOf, hch]

/-- One command after another on two channels. -/
theorem exec_exec_of_channel_ne {ci cj : Channel} (hch : i.channel ≠ j.channel)
    (hci : s.channels[i.channel]? = some ci) (hcj : s.channels[j.channel]? = some cj) :
    ∃ s1, exec i s = .next s1 ∧ exec j s1 = .next
      { channels := (s.channels.set i.channel (unitStep i ci).1).set j.channel (unitStep j cj).1,
        inputs := s.inputs, responses := s.responses ++ [responseOf i ci, responseOf j cj] } := by
  refine ⟨_, exec_of_some i hci, ?_⟩
  rw [exec_of_some (c := cj) j (by rw [respond_channels, getChannel_putChannel_ne s _ hch.symm, hcj])]
  simp [State.putChannel, State.respond, responseOf]

end

/-- Responses on two ports: what each port shows does not depend on which came first. -/
theorem responsesOf_swap {r r' : Response} (h : r.channel ≠ r'.channel ∨ r.unit ≠ r'.unit)
    {s t : State} {l : List Response} (hs : s.responses = l ++ [r, r']) (ht : t.responses = l ++ [r', r])
    (ch : Nat) (u : UnitName) : responsesOf ch u s = responsesOf ch u t := by
  rw [responsesOf, responsesOf, hs, ht, List.filter_append, List.filter_append]
  by_cases hr : r.channel = ch ∧ r.unit = u
  · have hr' : ¬ (r'.channel = ch ∧ r'.unit = u) := by
      rintro ⟨rfl, rfl⟩
      exact h.elim (absurd hr.1) (absurd hr.2)
    simp [hr, hr']
  · simp [List.filter_cons, hr]

/-- Settles O31: on one channel the two units' transitions commute, on two channels the two writes do; and
the two responses are on different ports. -/
theorem independentCommandsCommute : Obligations.IndependentCommandsCommute := by
  intro i j s ci cj hind hci hcj
  by_cases hch : i.channel = j.channel
  · have hu : i.unit ≠ j.unit := hind.resolve_left (absurd hch)
    obtain rfl : ci = cj := Option.some.inj (hci.symm.trans (hch ▸ hcj))
    obtain ⟨s1, hi, hij⟩ := exec_exec_of_channel_eq hch hu hci
    obtain ⟨t1, hj, hji⟩ := exec_exec_of_channel_eq hch.symm hu.symm hcj
    have hregs := ((unitStep_actsOn i).commute (unitStep_actsOn j) hu ci).1
    exact ⟨s1, _, t1, _, hi, hij, hj, hji, by simp only [hch, hregs], rfl, responsesOf_swap hind rfl rfl⟩
  · obtain ⟨s1, hi, hij⟩ := exec_exec_of_channel_ne hch hci hcj
    obtain ⟨t1, hj, hji⟩ := exec_exec_of_channel_ne (Ne.symm hch) hcj hci
    exact ⟨s1, _, t1, _, hi, hij, hj, hji, List.set_comm _ _ hch, rfl, responsesOf_swap hind rfl rfl⟩

end Sys2Proof.Proofs
end

section
/-! The latched options of an idle unit cannot be observed (10_state.md R23, R27, R32, R43;
70_reset_and_hazards.md R201). -/

namespace Sys2Proof.Proofs

open Sys2Proof.Machine Sys2Proof.Laws

/-- A transition that cannot tell registers with one observable part apart: it gives registers with one
observable part, and one reply. -/
def Respects {ρ : Type} (obs : ρ → ρ) (f : ρ → ρ × Reply) : Prop :=
  ∀ x y, obs x = obs y → obs (f x).1 = obs (f y).1 ∧ (f x).2 = (f y).2

/-- Only registers of idle units are hidden, and never the `run` flag itself. -/
structure HidesOnlyIdle {ρ : Type} (run : ρ → Bool) (obs : ρ → ρ) : Prop where
  keepsRun : ∀ x, run (obs x) = run x
  ofOpen : ∀ x, run x = true → obs x = x

theorem ups_hidesOnlyIdle : HidesOnlyIdle Ups.run Ups.observable where
  keepsRun u := by unfold Ups.observable; split <;> rfl
  ofOpen _ hrun := if_pos hrun

theorem dsm_hidesOnlyIdle : HidesOnlyIdle Dsm.run Dsm.observable where
  keepsRun d := by unfold Dsm.observable; split <;> rfl
  ofOpen _ hrun := if_pos hrun

theorem dec_hidesOnlyIdle : HidesOnlyIdle Dec.run Dec.observable where
  keepsRun d := by unfold Dec.observable; split <;> rfl
  ofOpen _ hrun := if_pos hrun

section
variable {ρ : Type} {run : ρ → Bool} {obs : ρ → ρ} {f : ρ → ρ × Reply}

/-- A transition that reads no register, such as a START. -/
theorem respects_const (p : ρ × Reply) : Respects obs fun _ => p :=
  fun _ _ _ => ⟨rfl, rfl⟩

/-- A transition that only takes an error. -/
theorem respects_failWith (st : Status) : Respects obs fun x => failWith x st :=
  fun _ _ h => ⟨h, rfl⟩

/-- A data or stop command: two open units with one observable part are equal, and idle ones both take the
error. -/
theorem respects_of_idle (hobs : HidesOnlyIdle run obs)
    (hidle : ∀ x, run x = false → f x = failWith x .errIdle) : Respects obs f := by
  intro x y h
  have hrun : run x = run y := by rw [← hobs.keepsRun x, h, hobs.keepsRun y]
  cases hx : run x with
  | false =>
    rw [hidle x hx, hidle y (hrun ▸ hx)]
    exact ⟨h, rfl⟩
  | true =>
    rw [hobs.ofOpen x hx, hobs.ofOpen y (hrun ▸ hx)] at h
    rw [h]
    exact ⟨rfl, rfl⟩

end

theorem decStartUnit_respects (k1 k2 k3 : Num) : Respects Dec.observable (decStartUnit k1 k2 k3) := by
  cases hk : coefficientsLegal k1 k2 k3 with
  | false =>
    have hf : decStartUnit k1 k2 k3 = fun d => failWith d .errParam :=
      funext fun d => decStartUnit_illegal d hk
    exact hf ▸ respects_failWith _
  | true =>
    have hf : decStartUnit k1 k2 k3 = fun _ => decStartUnit k1 k2 k3 Dec.reset :=
      funext fun d => (decStartUnit_legal d hk).trans (decStartUnit_legal Dec.reset hk).symm
    exact hf ▸ respects_const _

/-! From the units to the channel. -/

theorem channel_observable_eq_iff {c c' : Channel} :
    c.observable = c'.observable ↔ c.ups.observable = c'.ups.observable
      ∧ c.dsm.observable = c'.dsm.observable ∧ c.dec.observable = c'.dec.observable := by
  rw [Channel.observable, Channel.observable, Channel.mk.injEq]

theorem Respects.onUps {f : Ups → Ups × Reply} (hf : Respects Ups.observable f) :
    Respects Channel.observable fun c => ({ c with ups := (f c.ups).1 }, (f c.ups).2) := by
  intro c c' h
  obtain ⟨hups, hdsm, hdec⟩ := channel_observable_eq_iff.mp h
  obtain ⟨hregs, hreply⟩ := hf _ _ hups
  exact ⟨channel_observable_eq_iff.mpr ⟨hregs, hdsm, hdec⟩, hreply⟩

theorem Respects.onDsm {f : Dsm → Dsm × Reply} (hf : Respects Dsm.observable f) :
    Respects Channel.observable fun c => ({ c with dsm := (f c.dsm).1 }, (f c.dsm).2) := by
  intro c c' h
  obtain ⟨hups, hdsm, hdec⟩ := channel_observable_eq_iff.mp h
  obtain ⟨hregs, hreply⟩ := hf _ _ hdsm
  exact ⟨channel_observable_eq_iff.mpr ⟨hups, hregs, hdec⟩, hreply⟩

theorem Respects.onDec {f : Dec → Dec × Reply} (hf : Respects Dec.observable f) :
    Respects Channel.observable fun c => ({ c with dec := (f c.dec).1 }, (f c.dec).2) := by
  intro c c' h
  obtain ⟨hups, hdsm, hdec⟩ := channel_observable_eq_iff.mp h
  obtain ⟨hregs, hreply⟩ := hf _ _ hdec
  exact ⟨channel_observable_eq_iff.mpr ⟨hups, hdsm, hregs⟩, hreply⟩

/-- No command can observe an option of an idle unit. -/
theorem unitStep_respects (i : Instr) : Respects Channel.observable (unitStep i) := by
  cases i with
  | upsStart _ m => exact Respects.onUps (respects_const (upsStartUnit m Ups.reset))
  | upsPush _ v => exact (respects_of_idle ups_hidesOnlyIdle fun _ => upsPushUnit_idle v).onUps
  | upsFlush _ => exact (respects_of_idle ups_hidesOnlyIdle fun _ => upsFlushUnit_idle).onUps
  | dsmStart _ n => exact Respects.onDsm (respects_const (dsmStartUnit n Dsm.reset))
  | dsmStep _ x => exact (respects_of_idle dsm_hidesOnlyIdle fun _ => dsmStepUnit_idle x).onDsm
  | dsmStop _ => exact (respects_of_idle dsm_hidesOnlyIdle fun _ => dsmStopUnit_idle).onDsm
  | decStart _ k1 k2 k3 => exact (decStartUnit_respects k1 k2 k3).onDec
  | decStep _ b => exact (respects_of_idle dec_hidesOnlyIdle fun _ => decStepUnit_idle b).onDec
  | decStop _ => exact (respects_of_idle dec_hidesOnlyIdle fun _ => decStopUnit_idle).onDec

/-! From the channel to the state and its step. -/

/-- Looking up a channel in two states that agree but for options of idle units. -/
theorem lookup_observable_eq {s t : State} (h : s.SameObservable t) (ch : Nat) :
    s.channels[ch]?.map Channel.observable = t.channels[ch]?.map Channel.observable := by
  rw [← List.getElem?_map, ← List.getElem?_map, h.1]

/-- One transition of one channel, in two such states. -/
theorem onChannel_sameOutcome {s t : State} (h : s.SameObservable t) (ch : Nat) (u : UnitName)
    {f : Channel → Channel × Reply} (hf : Respects Channel.observable f) :
    SameOutcome (onChannel ch u s f) (onChannel ch u t f) := by
  have hlookup := lookup_observable_eq h ch
  obtain ⟨hchannels, hinputs, hresponses⟩ := h
  cases hs : s.channels[ch]? <;> cases ht : t.channels[ch]? <;> simp only [hs, ht, Option.map] at hlookup
  case none.none =>
    rw [onChannel_of_none _ _ hs, onChannel_of_none _ _ ht]
    rfl
  case none.some => cases hlookup
  case some.none => cases hlookup
  case some.some c d =>
    obtain ⟨hregs, hreply⟩ := hf c d (Option.some.inj hlookup)
    rw [onChannel_of_some _ _ hs, onChannel_of_some _ _ ht, hreply]
    exact ⟨by simp [List.map_set, hchannels, hregs], hinputs, by simp [hresponses]⟩

/-- The transition of a transaction, decoded or illegal. -/
theorem transaction_respects (d : Except Illegal Instr) :
    Respects Channel.observable fun c =>
      match d with
      | .ok i => unitStep i c
      | .error _ => failWith c .errIllegal := by
  cases d with
  | ok i => exact unitStep_respects i
  | error _ => exact respects_failWith _

/-- Settles O32: two states that agree but for options of idle units take the same next input, and its
transition respects what is observable. -/
theorem idleOptionsAreUnobservable : Obligations.IdleOptionsAreUnobservable := by
  intro s t h
  obtain ⟨hchannels, hinputs, hresponses⟩ := h
  cases hs : s.inputs with
  | nil =>
    rw [step_of_nil hs, step_of_nil (hinputs ▸ hs)]
    exact ⟨hchannels, hinputs, hresponses⟩
  | cons i rest =>
    have hrest : (s.withInputs rest).SameObservable (t.withInputs rest) := ⟨hchannels, rfl, hresponses⟩
    rw [step_of_cons hs, step_of_cons (hinputs ▸ hs)]
    cases i with
    | command x =>
      rw [performInput, performInput, performTransaction_eq, performTransaction_eq]
      exact onChannel_sameOutcome hrest _ _ (transaction_respects (decode x))
    | reset =>
      have hlen : s.channels.length = t.channels.length := by simpa using congrArg List.length hchannels
      exact ⟨by simp [List.map_const', hlen], rfl, hresponses⟩

/-! A closed unit that has its invariant shows what a reset one shows (R201). -/

theorem ups_observable_of_closed {u : Ups} (hinv : u.Inv) (hrun : u.run = false) : u.observable = Ups.reset := by
  obtain ⟨run, mode, valid, prev⟩ := u
  obtain rfl : run = false := hrun
  obtain rfl : valid = false := by simpa using mt hinv.1
  obtain rfl : prev = 0 := hinv.2 rfl
  rfl

theorem dsm_observable_of_closed {d : Dsm} (hinv : d.Inv) (hrun : d.run = false) : d.observable = Dsm.reset := by
  obtain ⟨run, order, error, integrator, integrator2⟩ := d
  obtain ⟨rfl, rfl, rfl⟩ := hinv.1 hrun
  obtain rfl : run = false := hrun
  rfl

theorem dec_observable_of_closed {d : Dec} (hinv : d.Inv) (hrun : d.run = false) : d.observable = Dec.reset := by
  obtain ⟨run, k1, k2, k3, y1, y2, y3, period, cnt⟩ := d
  obtain ⟨rfl, rfl, rfl, rfl, rfl⟩ := hinv.2.1 hrun
  obtain rfl : run = false := hrun
  rfl

theorem channel_observable_of_closed {c : Channel} (hinv : c.Inv) (hidle : c.idle) :
    c.observable = Channel.reset.observable := by
  obtain ⟨hups, hdsm, hdec⟩ := hinv
  obtain ⟨hupsRun, hdsmRun, hdecRun⟩ := hidle
  rw [Channel.observable, ups_observable_of_closed hups hupsRun, dsm_observable_of_closed hdsm hdsmRun,
    dec_observable_of_closed hdec hdecRun]
  rfl

/-- Settles O33: every channel shows what a reset one shows, and there are as many of them. -/
theorem closedPassesLookLikeReset : Obligations.ClosedPassesLookLikeReset := by
  intro s hinv hidle hinputs hresponses
  obtain ⟨hlen, hchannels⟩ := hinv
  refine ⟨?_, hinputs, hresponses⟩
  calc s.channels.map Channel.observable
      = s.channels.map fun _ => Channel.reset.observable :=
        List.map_congr_left fun c hc => channel_observable_of_closed (hchannels c hc) (hidle c hc)
    _ = List.replicate Config.nchan Channel.reset.observable := by rw [List.map_const', hlen]
    _ = State.reset.channels.map Channel.observable := List.map_replicate.symm

end Sys2Proof.Proofs
end

section
/-! The invariants of R42, and the bounds of the decimator (43_demodulator.md R147): every transition keeps
them, so every step does. -/

namespace Sys2Proof.Proofs

open Sys2Proof.Machine Sys2Proof.Laws

/-- A transition that keeps a property of the registers. -/
def Keeps {ρ : Type} (P : ρ → Prop) (f : ρ → ρ × Reply) : Prop := ∀ x, P x → P (f x).1

/-- A data or stop command keeps whatever it keeps in an open pass: an idle unit takes the error. -/
theorem keeps_of_idle {ρ : Type} {run : ρ → Bool} {P : ρ → Prop} {f : ρ → ρ × Reply}
    (hidle : ∀ x, run x = false → f x = failWith x .errIdle)
    (hopen : ∀ x, run x = true → P x → P (f x).1) : Keeps P f := by
  intro x hx
  cases hrun : run x with
  | false => rw [hidle x hrun]; exact hx
  | true => exact hopen x hrun hx

/-! The upsampler. -/

theorem upsPushUnit_keeps_inv (v : Num) : Keeps Ups.Inv (upsPushUnit v) := by
  refine keeps_of_idle (run := Ups.run) (fun _ => upsPushUnit_idle v) fun u hrun _ => ?_
  rw [upsPushUnit_open v hrun]
  exact ⟨fun _ => hrun, nofun⟩

theorem upsFlushUnit_keeps_inv : Keeps Ups.Inv upsFlushUnit := by
  refine keeps_of_idle (run := Ups.run) (fun _ => upsFlushUnit_idle) fun u hrun _ => ?_
  rw [upsFlushUnit_open hrun]
  exact ⟨nofun, fun _ => rfl⟩

/-! The modulator. -/

theorem dsmStepUnit_keeps_inv (x : Num) : Keeps Dsm.Inv (dsmStepUnit x) := by
  refine keeps_of_idle (run := Dsm.run) (fun _ => dsmStepUnit_idle x) fun d hrun hinv => ?_
  obtain ⟨-, hfirst, hsecond⟩ := hinv
  have hopen : d.run ≠ false := by simp [hrun]
  cases hord : d.order with
  | first =>
    rw [dsmStepUnit_first x hrun hord]
    exact ⟨fun h => absurd h hopen, hfirst, fun _ h => absurd (hord.symm.trans h) (by decide)⟩
  | second =>
    rw [dsmStepUnit_second x hrun hord]
    exact ⟨fun h => absurd h hopen, fun _ h => absurd (hord.symm.trans h) (by decide), hsecond⟩

theorem dsmStopUnit_keeps_inv : Keeps Dsm.Inv dsmStopUnit := by
  refine keeps_of_idle (run := Dsm.run) (fun _ => dsmStopUnit_idle) fun d hrun _ => ?_
  rw [dsmStopUnit_open hrun]
  exact ⟨fun _ => ⟨rfl, rfl, rfl⟩, nofun, nofun⟩

/-! The demodulator. -/

theorem decStartUnit_keeps_inv (k1 k2 k3 : Num) : Keeps Dec.Inv (decStartUnit k1 k2 k3) := by
  intro d hinv
  cases hk : coefficientsLegal k1 k2 k3 with
  | false => rw [decStartUnit_illegal d hk]; exact hinv
  | true =>
    rw [decStartUnit_legal d hk]
    exact ⟨Nat.zero_le _, nofun, fun _ => (coefficientsLegal_iff k1 k2 k3).mp hk⟩

theorem decStepUnit_keeps_inv (b : Pulse) : Keeps Dec.Inv (decStepUnit b) := by
  refine keeps_of_idle (run := Dec.run) (fun _ => decStepUnit_idle b) fun d hrun hinv => ?_
  obtain ⟨hcnt, -, hcoefficients⟩ := hinv
  have hopen : d.run ≠ false := by simp [hrun]
  rw [decStepUnit_open b hrun]
  by_cases hcnt' : (filterPulse b d).cnt + 1 = 32
  · rw [decimate_complete hcnt']
    exact ⟨Nat.zero_le _, fun h => absurd h hopen, hcoefficients⟩
  · rw [decimate_partial hcnt']
    rw [filterPulse_cnt] at hcnt'
    exact ⟨show d.cnt + 1 ≤ 31 by omega, fun h => absurd h hopen, hcoefficients⟩

theorem decStopUnit_keeps_inv : Keeps Dec.Inv decStopUnit := by
  refine keeps_of_idle (run := Dec.run) (fun _ => decStopUnit_idle) fun d hrun _ => ?_
  rw [decStopUnit_open hrun]
  exact ⟨Nat.zero_le _, fun _ => ⟨rfl, rfl, rfl, rfl, rfl⟩, nofun⟩

/-! The bounds of the demodulator. -/

/-- A filter and a block at zero, as a start and a stop leave them. -/
theorem bounded_of_zero {d : Dec} (h1 : d.y1 = 0) (h2 : d.y2 = 0) (h3 : d.y3 = 0) (hperiod : d.period = 0)
    (hcnt : d.cnt = 0) : d.Bounded := by
  simp [Dec.Bounded, h1, h2, h3, hperiod, hcnt]

theorem decStartUnit_keeps_bounded (k1 k2 k3 : Num) : Keeps Dec.Bounded (decStartUnit k1 k2 k3) := by
  intro d hb
  cases hk : coefficientsLegal k1 k2 k3 with
  | false => rw [decStartUnit_illegal d hk]; exact hb
  | true => rw [decStartUnit_legal d hk]; exact bounded_of_zero rfl rfl rfl rfl rfl

theorem decStopUnit_keeps_bounded : Keeps Dec.Bounded decStopUnit := by
  refine keeps_of_idle (run := Dec.run) (fun _ => decStopUnit_idle) fun d hrun _ => ?_
  rw [decStopUnit_open hrun]
  exact bounded_of_zero rfl rfl rfl rfl rfl

/-- The three leaky integrators in a row stay below full scale, for legal coefficients. -/
theorem filterPulse_bounded {d : Dec} (b : Pulse) (hinv : d.Inv) (hrun : d.run = true) (hb : d.Bounded) :
    (filterPulse b d).Bounded := by
  obtain ⟨-, -, hcoefficients⟩ := hinv
  obtain ⟨hk1, hk2, hk3⟩ := hcoefficients hrun
  obtain ⟨h1, h2, h3, hperiod⟩ := hb
  have h1' := leak_bounded hk1 h1 (abs_pv b).le
  have h2' := leak_bounded hk2 h2 h1'.le
  exact ⟨h1', h2', leak_bounded hk3 h3 h2'.le, hperiod⟩

/-- The running sum of a block of `cnt` samples with one more. -/
theorem abs_period_add_y3_lt {d : Dec} (hb : d.Bounded) :
    |d.period + d.y3| < ((d.cnt : Num) + 1) * 32768 := by
  obtain ⟨-, -, h3, hpos, hzero⟩ := hb
  have hperiod : |d.period| ≤ (d.cnt : Num) * 32768 := by
    obtain hcnt | hcnt := Nat.eq_zero_or_pos d.cnt
    · simp [hzero hcnt, hcnt]
    · exact (hpos hcnt).le
  calc |d.period + d.y3| ≤ |d.period| + |d.y3| := abs_add_le _ _
    _ < (d.cnt : Num) * 32768 + 32768 := add_lt_add_of_le_of_lt hperiod h3
    _ = ((d.cnt : Num) + 1) * 32768 := by ring

theorem decimate_bounded {d : Dec} (hb : d.Bounded) : (decimate d).1.Bounded := by
  have hsum := abs_period_add_y3_lt hb
  obtain ⟨h1, h2, h3, -⟩ := hb
  by_cases hcnt : d.cnt + 1 = 32
  · rw [decimate_complete hcnt]
    exact ⟨h1, h2, h3, nofun, fun _ => rfl⟩
  · rw [decimate_partial hcnt]
    exact ⟨h1, h2, h3, fun _ => by simpa using hsum, nofun⟩

theorem decStepUnit_bounded {d : Dec} (b : Pulse) (hinv : d.Inv) (hb : d.Bounded) :
    (decStepUnit b d).1.Bounded := by
  cases hrun : d.run with
  | false => rw [decStepUnit_idle b hrun]; exact hb
  | true => rw [decStepUnit_open b hrun]; exact decimate_bounded (filterPulse_bounded b hinv hrun hb)

/-! From the units to the channel. -/

theorem unitStep_keeps_inv (i : Instr) : Keeps Channel.Inv (unitStep i) := by
  rintro c ⟨hups, hdsm, hdec⟩
  cases i with
  | upsStart _ m => exact ⟨⟨fun _ => rfl, fun _ => rfl⟩, hdsm, hdec⟩
  | upsPush _ v => exact ⟨upsPushUnit_keeps_inv v _ hups, hdsm, hdec⟩
  | upsFlush _ => exact ⟨upsFlushUnit_keeps_inv _ hups, hdsm, hdec⟩
  | dsmStart _ n => exact ⟨hups, ⟨nofun, fun _ _ => ⟨rfl, rfl⟩, fun _ _ => rfl⟩, hdec⟩
  | dsmStep _ x => exact ⟨hups, dsmStepUnit_keeps_inv x _ hdsm, hdec⟩
  | dsmStop _ => exact ⟨hups, dsmStopUnit_keeps_inv _ hdsm, hdec⟩
  | decStart _ k1 k2 k3 => exact ⟨hups, hdsm, decStartUnit_keeps_inv k1 k2 k3 _ hdec⟩
  | decStep _ b => exact ⟨hups, hdsm, decStepUnit_keeps_inv b _ hdec⟩
  | decStop _ => exact ⟨hups, hdsm, decStopUnit_keeps_inv _ hdec⟩

/-- The bounds need the coefficients of the invariant, so the two are kept together. -/
def InvBounded (c : Channel) : Prop := c.Inv ∧ c.dec.Bounded

theorem unitStep_keeps_invBounded (i : Instr) : Keeps InvBounded (unitStep i) := by
  rintro c ⟨hinv, hb⟩
  refine ⟨unitStep_keeps_inv i c hinv, ?_⟩
  obtain ⟨-, -, hdec⟩ := hinv
  cases i with
  | upsStart _ _ | upsPush _ _ | upsFlush _ | dsmStart _ _ | dsmStep _ _ | dsmStop _ => exact hb
  | decStart _ k1 k2 k3 => exact decStartUnit_keeps_bounded k1 k2 k3 _ hb
  | decStep _ b => exact decStepUnit_bounded b hdec hb
  | decStop _ => exact decStopUnit_keeps_bounded _ hb

theorem channel_reset_invBounded : InvBounded Channel.reset :=
  ⟨⟨⟨nofun, fun _ => rfl⟩, ⟨fun _ => ⟨rfl, rfl, rfl⟩, nofun, nofun⟩,
    ⟨Nat.zero_le _, fun _ => ⟨rfl, rfl, rfl, rfl, rfl⟩, nofun⟩⟩, bounded_of_zero rfl rfl rfl rfl rfl⟩

/-! From the channel to the step. -/

/-- A property of channels that reset has and every command keeps, every step keeps in every channel. -/
theorem step_keeps_channels {P : Channel → Prop} (hreset : P Channel.reset)
    (hkeeps : ∀ i, Keeps P (unitStep i)) {s t : State} (h : step s = .next t)
    (hs : ∀ c ∈ s.channels, P c) : ∀ c ∈ t.channels, P c := by
  obtain ⟨-, rfl⟩ | ⟨x, rest, c, r, -, hc, rfl, rfl⟩ | ⟨rest, -, rfl⟩ := step_next h
  · exact hs
  · intro c' hc'
    have hPc : P c := hs c (List.mem_of_getElem? hc)
    obtain hold | rfl := List.mem_or_eq_of_mem_set hc'
    · exact hs c' hold
    · split
      · exact hkeeps _ c hPc
      · exact hPc
  · intro c hc
    exact eq_reset_of_mem_resetEvent hc ▸ hreset

/-- No step changes the number of channels; it takes the next input, if there is one. -/
theorem step_length_and_inputs {s t : State} (h : step s = .next t) :
    t.channels.length = s.channels.length ∧ t.inputs = s.inputs.tail := by
  obtain ⟨hi, rfl⟩ | ⟨x, rest, c, r, hi, -, -, rfl⟩ | ⟨rest, hi, rfl⟩ := step_next h <;> simp [hi]

theorem step_keeps_inv {s t : State} (hinv : s.Inv) (h : step s = .next t) : t.Inv :=
  ⟨(step_length_and_inputs h).1.trans hinv.1,
    step_keeps_channels channel_reset_invBounded.1 unitStep_keeps_inv h hinv.2⟩

/-- Settles O34: every command keeps the invariant of its channel, and reset has it. -/
theorem stepKeepsTheInvariant : Obligations.StepKeepsTheInvariant :=
  fun _ _ => step_keeps_inv

/-- Settles O35: the bounds are kept together with the invariant, whose coefficients they need. -/
theorem stepKeepsTheDecimatorBounded : Obligations.StepKeepsTheDecimatorBounded := by
  intro s t hinv hb h c hc
  have hs : ∀ c ∈ s.channels, InvBounded c := fun c hc => ⟨hinv.2 c hc, hb c hc⟩
  exact (step_keeps_channels channel_reset_invBounded unitStep_keeps_invBounded h hs c hc).2

/-- Settles O36: every channel of the reset state is a reset channel. -/
theorem resetHasTheInvariants : Obligations.ResetHasTheInvariants := by
  refine ⟨⟨reset_channels_length, fun c hc => ?_⟩, fun c hc => ?_⟩
  · exact eq_reset_of_mem_reset hc ▸ channel_reset_invBounded.1
  · exact eq_reset_of_mem_reset hc ▸ channel_reset_invBounded.2

/-- The one sample a `DEC.STEP` can emit is the mean of a block, and so below full scale. -/
theorem abs_lt_of_mem_decStepUnit {d : Dec} {b : Pulse} {v : Num} (hinv : d.Inv) (hb : d.Bounded)
    (hv : .num v ∈ (decStepUnit b d).2.emitted) : |v| < 32768 := by
  cases hrun : d.run with
  | false => rw [decStepUnit_idle b hrun] at hv; cases hv
  | true =>
    rw [decStepUnit_open b hrun] at hv
    by_cases hcnt : (filterPulse b d).cnt + 1 = 32
    · have hsum := abs_period_add_y3_lt (filterPulse_bounded b hinv hrun hb)
      have hcnt' : ((filterPulse b d).cnt : Num) + 1 = 32 := by exact_mod_cast hcnt
      rw [hcnt'] at hsum
      rw [decimate_complete hcnt] at hv
      obtain rfl := Datum.num.inj (List.mem_singleton.mp hv)
      rw [abs_div, abs_of_pos (by norm_num : (0 : Num) < 32), div_lt_iff₀ (by norm_num)]
      linarith
    · rw [decimate_partial hcnt] at hv
      cases hv

/-- Settles O37: the one response is that of the channel's `DEC.STEP`. -/
theorem emittedDecSamplesAreBelowFullScale : Obligations.EmittedDecSamplesAreBelowFullScale := by
  intro s t ch b rs hinv hb h hrs r hr v hv
  obtain ⟨c, hc, rfl⟩ := exec_next h
  have hmem : c ∈ s.channels := List.mem_of_getElem? hc
  obtain ⟨-, -, hdec⟩ := hinv.2 c hmem
  obtain rfl := List.append_cancel_left hrs
  obtain rfl := List.mem_singleton.mp hr
  exact abs_lt_of_mem_decStepUnit hdec (hb c hmem) hv

/-- A step on an input addressed to a port that exists answers a next state. -/
theorem step_next_of_addressed {s : State} (hlen : s.channels.length = Config.nchan) (ha : s.Addressed) :
    ∃ t, step s = .next t := by
  cases hi : s.inputs with
  | nil => exact ⟨s, step_of_nil hi⟩
  | cons i rest =>
    rw [step_of_cons hi]
    cases i with
    | reset => exact ⟨_, rfl⟩
    | command x =>
      have hx : channelExists x.channel = true := ha (.command x) (hi ▸ List.mem_cons_self ..)
      have hlt : x.channel < (s.withInputs rest).channels.length := hlen ▸ of_decide_eq_true hx
      rw [performInput, performTransaction_eq, onChannel_of_some _ _ (List.getElem?_eq_getElem hlt)]
      exact ⟨_, rfl⟩

/-- Settles O38: the next input is on a port that exists, and the step leaves the inputs after it. -/
theorem addressedHostIsNeverStopped : Obligations.AddressedHostIsNeverStopped := by
  intro s hinv ha
  obtain ⟨t, h⟩ := step_next_of_addressed hinv.1 ha
  refine ⟨t, h, step_keeps_inv hinv h, fun i hi => ha i ?_⟩
  rw [(step_length_and_inputs h).2] at hi
  exact List.mem_of_mem_tail hi

end Sys2Proof.Proofs
end

section
/-! The source's upsampler on a whole Signal: its elements by block, its shape, and its linearity
(41_upsampler.md R100 to R102, R108). -/

namespace Sys2Proof.Proofs

open Sys2Proof.Machine Sys2Proof.Laws

/-- Element `r` of the block between a sample and its successor, by the rule of the mode (R100, R101). -/
def blockElement (m : UpsMode) (a b : Num) (r : Nat) : Num :=
  match m with
  | .interp => a + (b - a) * (r : Num) / 32
  | .extrap => 3 * a - 2 * b

section
variable {m : UpsMode} {signal : List Num} {i r : Nat} {a b : Num}

theorem upsampleAt_inner (ha : signal[i]? = some a) (hb : signal[i + 1]? = some b) :
    upsampleAt m signal i r = blockElement m a b r := by
  simp only [upsampleAt, ha, hb]
  rfl

theorem upsampleAt_last (ha : signal[i]? = some a) (hb : signal[i + 1]? = none) :
    upsampleAt m signal i r = a := by
  simp only [upsampleAt, ha, hb]

end

theorem upsample_length (m : UpsMode) (signal : List Num) :
    (upsample m signal).length = 32 * signal.length := by
  simp [upsample]

/-- Block `i` of the output, element by element. -/
theorem getElem?_upsample (m : UpsMode) {signal : List Num} {i r : Nat} (hi : i < signal.length)
    (hr : r < 32) : (upsample m signal)[32 * i + r]? = some (upsampleAt m signal i r) := by
  have hlt : 32 * i + r < 32 * signal.length := by omega
  have hdiv : (32 * i + r) / 32 = i := by omega
  have hmod : (32 * i + r) % 32 = r := by omega
  rw [upsample, List.getElem?_map, oversample_eq, List.getElem?_range hlt, Option.map_some, hdiv, hmod]

/-- The block of a sample that has a successor. -/
theorem getElem?_upsample_inner (m : UpsMode) {signal : List Num} {i r : Nat} {a b : Num}
    (ha : signal[i]? = some a) (hb : signal[i + 1]? = some b) (hr : r < 32) :
    (upsample m signal)[32 * i + r]? = some (blockElement m a b r) := by
  obtain ⟨hi, -⟩ := List.getElem?_eq_some_iff.mp ha
  rw [getElem?_upsample m hi hr, upsampleAt_inner ha hb]

/-- Settles O43: the elements of a block are those of its mode's rule. -/
theorem upsampleBlockShape : Obligations.UpsampleBlockShape := by
  intro signal m
  refine ⟨upsample_length m signal, fun i a b ha hb => ⟨?_, fun r hr => ?_, fun r hr => ?_⟩⟩
  · simpa [blockElement] using getElem?_upsample_inner .interp ha hb (r := 0) (by decide)
  · refine ⟨_, _, getElem?_upsample_inner .interp ha hb (by omega),
      getElem?_upsample_inner .interp ha hb (r := r + 1) (by omega), ?_⟩
    simp only [blockElement, Nat.cast_add, Nat.cast_one]
    ring
  · exact getElem?_upsample_inner .extrap ha hb hr

/-! Linearity. -/

theorem blockElement_linear (m : UpsMode) (al be a a' b b' : Num) (r : Nat) :
    blockElement m (al * a + be * a') (al * b + be * b') r
      = al * blockElement m a b r + be * blockElement m a' b' r := by
  cases m <;> simp only [blockElement] <;> ring

theorem blockElement_const (m : UpsMode) (v : Num) (r : Nat) : blockElement m v v r = v := by
  cases m <;> simp only [blockElement] <;> ring

/-- A linear combination of two Signals of one length, element by element: inside a block both Signals have
a successor, in the last block neither has. -/
theorem upsampleAt_linear (m : UpsMode) (al be : Num) {s t : List Num} (h : s.length = t.length) {i : Nat}
    (hi : i < s.length) (r : Nat) :
    upsampleAt m (List.zipWith (fun x y => al * x + be * y) s t) i r
      = al * upsampleAt m s i r + be * upsampleAt m t i r := by
  have hi' : i < t.length := h ▸ hi
  have hs := List.getElem?_eq_getElem hi
  have ht := List.getElem?_eq_getElem hi'
  have hz : (List.zipWith (fun x y => al * x + be * y) s t)[i]? = some (al * s[i] + be * t[i]) := by
    rw [List.getElem?_zipWith, hs, ht]
  by_cases hn : i + 1 < s.length
  · have hs' := List.getElem?_eq_getElem hn
    have ht' := List.getElem?_eq_getElem (h ▸ hn : i + 1 < t.length)
    rw [upsampleAt_inner hs hs', upsampleAt_inner ht ht', ← blockElement_linear]
    exact upsampleAt_inner hz (by rw [List.getElem?_zipWith, hs', ht'])
  · have hs' : s[i + 1]? = none := List.getElem?_eq_none (by omega)
    have ht' : t[i + 1]? = none := List.getElem?_eq_none (by omega)
    rw [upsampleAt_last hs hs', upsampleAt_last ht ht']
    exact upsampleAt_last hz (by rw [List.getElem?_zipWith, hs'])

theorem upsample_linear (m : UpsMode) (al be : Num) {s t : List Num} (h : s.length = t.length) :
    upsample m (List.zipWith (fun x y => al * x + be * y) s t)
      = List.zipWith (fun x y => al * x + be * y) (upsample m s) (upsample m t) := by
  have hlen : (List.zipWith (fun x y => al * x + be * y) s t).length = s.length := by simp [h]
  rw [upsample, upsample, upsample, hlen, ← h, List.zipWith_map, List.zipWith_self]
  refine List.map_congr_left fun j hj => upsampleAt_linear m al be h ?_ _
  have hlt := List.mem_range.mp hj
  exact Nat.div_lt_of_lt_mul hlt

theorem upsample_replicate (m : UpsMode) (n : Nat) (v : Num) :
    upsample m (List.replicate n v) = List.replicate (32 * n) v := by
  rw [List.eq_replicate_iff, upsample_length, List.length_replicate]
  refine ⟨rfl, fun x hx => ?_⟩
  obtain ⟨j, hj, rfl⟩ := List.mem_map.mp hx
  have hi : j / 32 < n := by
    rw [List.mem_range, List.length_replicate] at hj
    exact Nat.div_lt_of_lt_mul hj
  by_cases hn : j / 32 + 1 < n
  · exact (upsampleAt_inner (List.getElem?_replicate_of_lt hi) (List.getElem?_replicate_of_lt hn)).trans
      (blockElement_const m v _)
  · exact upsampleAt_last (List.getElem?_replicate_of_lt hi) (List.getElem?_eq_none (by simpa using hn))

/-- Settles O44, from the linearity of the rule of one element. -/
theorem upsampleIsLinear : Obligations.UpsampleIsLinear :=
  ⟨fun m al be _ _ h => upsample_linear m al be h, upsample_replicate⟩

end Sys2Proof.Proofs
end

section
/-! The source's demodulator on a whole pulse stream: length, symmetry, causality and step response
(43_demodulator.md R142, R144, R148, R149). -/

namespace Sys2Proof.Proofs

open Sys2Proof.Machine Sys2Proof.Laws

theorem demodulate3_length (p : List Pulse) (k1 k2 k3 : Num) :
    (demodulate3 p k1 k2 k3).length = p.length / 32 := by
  simp [demodulate3]

theorem getElem?_demodulate3 (k1 k2 k3 : Num) {p : List Pulse} {j : Nat} (hj : 32 * (j + 1) ≤ p.length) :
    (demodulate3 p k1 k2 k3)[j]? = some (blockMean k1 k2 k3 p j) := by
  have hlt : j < p.length / 32 := by omega
  rw [demodulate3, List.getElem?_map, oversample_eq, List.getElem?_range hlt, Option.map_some]

theorem pv_not (b : Pulse) : pv (!b) = -pv b := by
  cases b <;> simp [pv]

/-- Complementing every bit negates the three stages, as far as the stream goes. -/
theorem cascade_not (k1 k2 k3 : Num) (p : List Pulse) {n : Nat} (hn : n ≤ p.length) :
    cascade k1 k2 k3 (p.map (!·)) n = -cascade k1 k2 k3 p n := by
  induction n with
  | zero => simp [cascade]
  | succ n ih =>
    have hget : (p.map (!·)).getD n false = !p.getD n false := by
      simp [List.getD_eq_getElem?_getD, List.getElem?_eq_getElem (show n < p.length from hn)]
    simp only [cascade, ih (Nat.le_of_succ_le hn), hget, pv_not, Prod.fst_neg, Prod.snd_neg, Prod.neg_mk,
      Prod.mk.injEq]
    refine ⟨?_, ?_, ?_⟩ <;> ring

/-- Step `n` of the stages depends on the first `n` pulses only. -/
theorem cascade_congr (k1 k2 k3 : Num) {p q : List Pulse} {n : Nat} (h : p.take n = q.take n) :
    cascade k1 k2 k3 p n = cascade k1 k2 k3 q n := by
  induction n with
  | zero => rfl
  | succ n ih =>
    have htake : p.take n = q.take n := by simpa [List.take_take] using congrArg (List.take n) h
    have hget : p.getD n false = q.getD n false := by
      rw [List.getD_eq_getElem?_getD, List.getD_eq_getElem?_getD, ← List.getElem?_take_of_lt n.lt_succ_self, h,
        List.getElem?_take_of_lt n.lt_succ_self]
    simp only [cascade, ih htake, hget]

theorem blockMean_not (k1 k2 k3 : Num) {p : List Pulse} {j : Nat} (hj : 32 * (j + 1) ≤ p.length) :
    blockMean k1 k2 k3 (p.map (!·)) j = -blockMean k1 k2 k3 p j := by
  rw [blockMean, blockMean, ← neg_div, List.sum_neg, List.map_map]
  refine congrArg (fun l : List Num => l.sum / 32) (List.map_congr_left fun i hi => ?_)
  have hlt := List.mem_range.mp hi
  simp only [oversample_eq] at hlt ⊢
  rw [cascade_not _ _ _ _ (by omega)]
  rfl

theorem blockMean_congr (k1 k2 k3 : Num) {p q : List Pulse} {j : Nat}
    (h : p.take (32 * (j + 1)) = q.take (32 * (j + 1))) : blockMean k1 k2 k3 p j = blockMean k1 k2 k3 q j := by
  refine congrArg (fun l : List Num => l.sum / 32) (List.map_congr_left fun i hi => ?_)
  have hlt := List.mem_range.mp hi
  simp only [oversample_eq] at hlt ⊢
  have hmin : min (32 * j + i + 1) (32 * (j + 1)) = 32 * j + i + 1 := by omega
  have htake := congrArg (List.take (32 * j + i + 1)) h
  rw [List.take_take, List.take_take, hmin] at htake
  rw [cascade_congr _ _ _ htake]

/-- Settles O49, from what one block's mean depends on. -/
theorem demodulateLengthSymmetryCausality : Obligations.DemodulateLengthSymmetryCausality := by
  intro k1 k2 k3 p q
  refine ⟨demodulate3_length p k1 k2 k3, ?_, fun j hp hq h => ?_⟩
  · rw [demodulate3, demodulate3, List.map_map, List.length_map]
    refine List.map_congr_left fun j hj => blockMean_not k1 k2 k3 ?_
    have hlt := List.mem_range.mp hj
    rw [oversample_eq] at hlt
    omega
  · rw [getElem?_demodulate3 _ _ _ hp, getElem?_demodulate3 _ _ _ hq, blockMean_congr _ _ _ h]

/-- Settles O50, by induction on the number of ones. -/
theorem stepResponseOfTheCascade : Obligations.StepResponseOfTheCascade := by
  intro k len n hn
  induction n with
  | zero => simp [cascade]
  | succ n ih =>
    have hget : (List.replicate len true).getD n false = true := by
      rw [List.getD_eq_getElem?_getD, List.getElem?_replicate_of_lt hn, Option.getD_some]
    simp only [cascade, ih (Nat.le_of_succ_le hn), hget, pv_true, Prod.mk.injEq, Nat.cast_add, Nat.cast_one]
    refine ⟨?_, ?_, ?_⟩ <;> ring

end Sys2Proof.Proofs
end

section
/-! Lists joined from chunks of one length, as the windows of FrequencyReducer and the passes of OffsetSearch
are. -/

namespace Sys2Proof.Proofs

section
variable {α : Type} {f : Nat → List α} {w n : Nat}

theorem length_flatMap_chunks (hf : ∀ j < n, (f j).length = w) :
    ((List.range n).flatMap f).length = w * n := by
  have hconst : (List.range n).map (fun j => (f j).length) = List.replicate n w :=
    List.eq_replicate_iff.mpr ⟨by simp, by simpa using hf⟩
  rw [List.length_flatMap, hconst, List.sum_replicate, smul_eq_mul, Nat.mul_comm]

/-- Chunk `j` of the joined chunks. -/
theorem take_drop_flatMap_chunks (hf : ∀ j < n, (f j).length = w) {j : Nat} (hj : j < n) :
    (((List.range n).flatMap f).drop (w * j)).take w = f j := by
  induction n with
  | zero => cases hj
  | succ n ih =>
    have hlen := length_flatMap_chunks fun j hj => hf j (Nat.lt_succ_of_lt hj)
    rw [List.range_succ, List.flatMap_append, List.flatMap_singleton]
    obtain hlt | rfl := Nat.lt_succ_iff_lt_or_eq.mp hj
    · have hle : w * (j + 1) ≤ w * n := Nat.mul_le_mul_left w hlt
      rw [Nat.mul_succ] at hle
      have htake : w ≤ (((List.range n).flatMap f).drop (w * j)).length := by
        rw [List.length_drop]
        omega
      rw [List.drop_append_of_le_length (by omega), List.take_append_of_le_length htake]
      exact ih (fun j hj => hf j (Nat.lt_succ_of_lt hj)) hlt
    · rw [← hlen, List.drop_left, List.take_of_length_le (hf j hj).le]

end

end Sys2Proof.Proofs
end

section
/-! FrequencyReducer: padding, the rewriting of one window, and the windows of the whole output
(44_reference_software.md R160 to R164). -/

namespace Sys2Proof.Proofs

open Sys2Proof.Machine Sys2Proof.Laws

/-! Padding. -/

theorem padLow_length (p : List Pulse) {w : Nat} (hw : 1 ≤ w) :
    (padLow p w).length = w * ((p.length + w - 1) / w) := by
  have hdiv := Nat.div_add_mod p.length w
  have hmod := Nat.mod_lt p.length hw
  unfold padLow
  split
  · next h =>
    have hsum : p.length + w - 1 = w * (p.length / w) + (w - 1) := by omega
    have hrest : (w - 1) / w = 0 := Nat.div_eq_of_lt (by omega)
    rw [hsum, Nat.mul_add_div hw, hrest, Nat.add_zero]
    omega
  · next h =>
    have hsum : p.length + w - 1 = w * (p.length / w + 1) + (p.length % w - 1) := by
      rw [Nat.mul_succ]
      omega
    have hrest : (p.length % w - 1) / w = 0 := Nat.div_eq_of_lt (by omega)
    rw [hsum, Nat.mul_add_div hw, hrest, Nat.add_zero, List.length_append, List.length_replicate, Nat.mul_succ]
    omega

theorem padLow_of_dvd {p : List Pulse} {w : Nat} (h : w ∣ p.length) : padLow p w = p :=
  if_pos (Nat.mod_eq_zero_of_dvd h)

/-! One window. -/

theorem countLow_le_length (win : List Pulse) : countLow win ≤ win.length := List.count_le_length

@[simp] theorem length_rewriteWindow (o : FrOrder) (win : List Pulse) :
    (rewriteWindow o win).length = win.length := by
  have hle := countLow_le_length win
  cases o <;> simp only [rewriteWindow, List.length_append, List.length_replicate] <;> omega

@[simp] theorem countLow_rewriteWindow (o : FrOrder) (win : List Pulse) :
    countLow (rewriteWindow o win) = countLow win := by
  cases o <;> simp [rewriteWindow, countLow, List.count_replicate]

/-- A window is rewritten by its length and its low count alone. -/
theorem rewriteWindow_congr (o : FrOrder) {win win' : List Pulse} (hlen : win.length = win'.length)
    (hlow : countLow win = countLow win') : rewriteWindow o win = rewriteWindow o win' := by
  unfold rewriteWindow
  rw [hlen, hlow]

theorem rewriteWindow_rewriteWindow (o : FrOrder) (win : List Pulse) :
    rewriteWindow o (rewriteWindow o win) = rewriteWindow o win :=
  rewriteWindow_congr o (length_rewriteWindow o win) (countLow_rewriteWindow o win)

/-! The whole output. -/

section
variable {p : List Pulse} {w : Nat} (o : FrOrder)

theorem window_length {q : List Pulse} {j : Nat} (hq : w ∣ q.length) (hj : j < q.length / w) :
    (window q w j).length = w := by
  obtain ⟨n, hn⟩ := hq
  rw [hn] at hj
  have hw : 0 < w := Nat.pos_of_ne_zero fun h => by simp [h] at hj
  have hjn : j + 1 ≤ n := by rwa [Nat.mul_div_cancel_left n hw] at hj
  have hle : w * (j + 1) ≤ w * n := Nat.mul_le_mul_left w hjn
  rw [Nat.mul_succ] at hle
  rw [window, List.length_take, List.length_drop]
  omega

theorem dvd_padLow_length (hw : 1 ≤ w) : w ∣ (padLow p w).length := ⟨_, padLow_length p hw⟩

/-- Every chunk the output is joined from has the window's length. -/
theorem length_rewritten_window (hw : 1 ≤ w) (j : Nat) (hj : j < (padLow p w).length / w) :
    (rewriteWindow o (window (padLow p w) w j)).length = w :=
  (length_rewriteWindow o _).trans (window_length (dvd_padLow_length hw) hj)

theorem regroup_length (hw : 1 ≤ w) : (regroup p w o).length = (padLow p w).length :=
  (length_flatMap_chunks (length_rewritten_window o hw)).trans (Nat.mul_div_cancel' (dvd_padLow_length hw))

/-- The windows of the output are the rewritten windows of the padded input. -/
theorem window_regroup (hw : 1 ≤ w) {j : Nat} (hj : j < (padLow p w).length / w) :
    window (regroup p w o) w j = rewriteWindow o (window (padLow p w) w j) :=
  take_drop_flatMap_chunks (length_rewritten_window o hw) hj

theorem countLow_window_regroup (hw : 1 ≤ w) (j : Nat) :
    countLow (window (regroup p w o) w j) = countLow (window (padLow p w) w j) := by
  by_cases hj : j < (padLow p w).length / w
  · rw [window_regroup o hw hj, countLow_rewriteWindow]
  · have hle : (padLow p w).length ≤ w * j :=
      calc (padLow p w).length = w * ((padLow p w).length / w) :=
            (Nat.mul_div_cancel' (dvd_padLow_length hw)).symm
        _ ≤ w * j := Nat.mul_le_mul_left w (Nat.le_of_not_lt hj)
    rw [window, window, List.drop_of_length_le (regroup_length o hw ▸ hle), List.drop_of_length_le hle]

theorem regroup_regroup (hw : 1 ≤ w) : regroup (regroup p w o) w o = regroup p w o := by
  have hpad : padLow (regroup p w o) w = regroup p w o :=
    padLow_of_dvd (regroup_length o hw ▸ dvd_padLow_length hw)
  rw [regroup, hpad, regroup_length o hw]
  refine List.flatMap_congr fun j hj => ?_
  rw [window_regroup o hw (List.mem_range.mp hj), rewriteWindow_rewriteWindow]

theorem reduceFrequency_natCast (hw : 1 ≤ w) : reduceFrequency p (w : Int) o = .ok (regroup p w o) :=
  if_neg (by omega)

end

/-- Settles O51: the windows of the output are the rewritten windows of the padded input. -/
theorem reduceFrequencyKeepsDutyCycle : Obligations.ReduceFrequencyKeepsDutyCycle := by
  refine ⟨fun p w o hw => if_pos hw, fun p w o hw => ?_⟩
  refine ⟨regroup p w o, reduceFrequency_natCast o hw, ?_, countLow_window_regroup o hw, ?_⟩
  · rw [regroup_length o hw, padLow_length p hw]
  · rw [reduceFrequency_natCast o hw, regroup_regroup o hw]

end Sys2Proof.Proofs
end

section
/-! RMSEEvaluator (44_reference_software.md R165, R166). -/

namespace Sys2Proof.Proofs

open Sys2Proof.Machine Sys2Proof.Laws

theorem meanSquare_self (a : List Num) : meanSquare a a = 0 := by
  simp [meanSquare, List.zipWith_self]

theorem mse_self {a : List Num} (ha : a ≠ []) : mse a a = .ok 0 := by
  simp [mse, ha, meanSquare_self]

theorem mse_of_length_ne {a b : List Num} (h : a.length ≠ b.length) : mse a b = .error .lengthMismatch :=
  if_pos h

/-- Where `mse` gives an error there is no `rmse`. -/
theorem not_isRmse_of_error {a b : List Num} {e : RefError} (h : mse a b = .error e) (r : Real) :
    ¬ IsRmse a b r := by
  rintro ⟨q, hq, -⟩
  rw [h] at hq
  cases hq

/-- The root is taken of the value of `mse`. -/
theorem mul_self_eq_of_isRmse {a b : List Num} {r : Real} {q : Num} (h : IsRmse a b r) (hq : mse a b = .ok q) :
    0 ≤ r ∧ r * r = (q : Real) := by
  obtain ⟨q', hq', hr⟩ := h
  obtain rfl := Except.ok.inj (hq.symm.trans hq')
  exact hr

/-- Settles O52; the order agrees because squaring is strictly monotone on the non-negative reals. -/
theorem rmseIsStrictAndMonotone : Obligations.RmseIsStrictAndMonotone := by
  refine ⟨fun a ha => ⟨mse_self ha, 0, mse_self ha, le_refl 0, by simp⟩,
    fun a b hab => ⟨mse_of_length_ne hab, not_isRmse_of_error (mse_of_length_ne hab)⟩,
    not_isRmse_of_error (e := .emptySequences) rfl, fun a b a' b' r r' q q' hr hr' hq hq' => ?_⟩
  obtain ⟨h0, hsq⟩ := mul_self_eq_of_isRmse hr hq
  obtain ⟨h0', hsq'⟩ := mul_self_eq_of_isRmse hr' hq'
  calc r < r' ↔ r * r < r' * r' := mul_self_lt_mul_self_iff h0 h0'
    _ ↔ q < q' := by rw [hsq, hsq', Rat.cast_lt]

end Sys2Proof.Proofs
end

section
/-! OffsetSearch as a value: the least error with its smallest offset, and the refusals
(44_reference_software.md R168, R169). -/

namespace Sys2Proof.Proofs

open Sys2Proof.Machine Sys2Proof.Laws

/-- `best` is the least of the errors up to offset `n`, with the smallest offset that has it. -/
structure IsLeastError (err : Nat → Num) (n : Nat) (best : Nat × Num) : Prop where
  inRange : best.1 ≤ n
  error : best.2 = err best.1
  least : ∀ o ≤ n, best.2 ≤ err o
  smallest : ∀ o < best.1, best.2 < err o

theorem leastErrorUpTo_isLeastError (err : Nat → Num) (n : Nat) :
    IsLeastError err n (leastErrorUpTo err n) := by
  induction n with
  | zero =>
    exact ⟨le_refl 0, rfl, fun o ho => by rw [Nat.le_zero.mp ho]; rfl, fun o ho => absurd ho o.not_lt_zero⟩
  | succ n ih =>
    rw [leastErrorUpTo, betterOffset]
    split
    · next hlt =>
      have hsmaller : ∀ o ≤ n, err (n + 1) < err o := fun o ho => hlt.trans_le (ih.least o ho)
      refine ⟨le_refl _, rfl, fun o ho => ?_, fun o ho => hsmaller o (Nat.le_of_lt_succ ho)⟩
      obtain hle | rfl := Nat.le_succ_iff.mp ho
      · exact (hsmaller o hle).le
      · exact le_refl _
    · next hge =>
      refine ⟨Nat.le_succ_of_le ih.inRange, ih.error, fun o ho => ?_, ih.smallest⟩
      obtain hle | rfl := Nat.le_succ_iff.mp ho
      · exact ih.least o hle
      · exact le_of_not_gt hge

theorem searchBestOffset_eq_ok {p : List Pulse} {original : List Num} {n : Nat} {k : Num} (hn : 1 ≤ n)
    (hk : 0 < k ∧ k < 1) (hp : 32 ≤ p.length) (ho : original ≠ []) :
    searchBestOffset p original (n : Int) k = .ok (leastErrorUpTo (offsetMse p original k) (n - 1)) := by
  simp only [searchBestOffset, searchRefusal_eq_none hn hk hp ho, Int.toNat_natCast]

/-- Settles O53: keeping the best offset so far, in increasing order, ends at the least error. -/
theorem offsetSearchFindsTheLeastError : Obligations.OffsetSearchFindsTheLeastError := by
  intro p original n k hn hk hp ho
  obtain ⟨hrange, herror, hleast, hsmallest⟩ :=
    leastErrorUpTo_isLeastError (offsetMse p original k) (n - 1)
  refine ⟨_, _, searchBestOffset_eq_ok hn hk hp ho, by omega, herror, fun o' ho' => hleast o' (by omega),
    hsmallest, hleast 0 (Nat.zero_le _)⟩

/-- What a search that is not refused was given. -/
theorem of_searchRefusal_eq_none {p : List Pulse} {original : List Num} {maxOffset : Int} {k : Num}
    (h : searchRefusal p original maxOffset k = none) :
    1 ≤ maxOffset ∧ 32 ≤ p.length ∧ original ≠ [] ∧ 0 < k ∧ k < 1 := by
  unfold searchRefusal at h
  split at h
  · cases h
  · next hoffset =>
    split at h
    · cases h
    · next hk =>
      split at h
      · cases h
      · next hlen =>
        have hk' : 0 < k ∧ k < 1 := by simpa [coefficientLegal] using hk
        rw [oversample_eq] at hlen
        exact ⟨by omega, by omega, fun h => by simp [h] at hlen, hk'⟩

/-- Settles O55: outside its conditions the search is refused, and a refused search is an error in both
forms and issues nothing. -/
theorem refusedSearchHasNoValueAndNoCommand : Obligations.RefusedSearchHasNoValueAndNoCommand := by
  intro ch p original maxOffset k hbad
  cases h : searchRefusal p original maxOffset k with
  | some e =>
    exact ⟨⟨e, by simp only [searchBestOffset, h]⟩, fun _ => ⟨e, by simp only [searchFromResponses, h]⟩,
      by simp only [searchProgram, h]⟩
  | none =>
    obtain ⟨hoffset, hp, ho, hk0, hk1⟩ := of_searchRefusal_eq_none h
    obtain hlt | hlt | rfl | hle | hle := hbad
    · omega
    · omega
    · exact absurd rfl ho
    · exact absurd hk0 (not_lt_of_ge hle)
    · exact absurd hk1 (not_lt_of_ge hle)

end Sys2Proof.Proofs
end

section
/-! Passes of commands for one unit: what a list of commands makes of its channel and emits when all of them
succeed, and the run that issues it (20_memory.md R60, 70_reset_and_hazards.md R212). -/

namespace Sys2Proof.Proofs

open Sys2Proof.Machine Sys2Proof.Laws

/-- The commands `l`, all for unit `u` of channel `ch`, answer `OK`, take the channel from `c` to `c'` and
emit `out` in all. -/
structure Pass (ch : Nat) (u : UnitName) (l : List Instr) (c c' : Channel) (out : List Datum) : Prop where
  port : ∀ i ∈ l, i.channel = ch ∧ i.unit = u
  after : (foldCommands l c).1 = c'
  ok : ∀ r ∈ (foldCommands l c).2, r.status = .ok
  emitted : (foldCommands l c).2.flatMap (·.emitted) = out

section
variable {ch : Nat} {u : UnitName} {l l' : List Instr} {c c' c'' : Channel} {out out' : List Datum}

theorem Pass.nil : Pass ch u [] c c [] where
  port := by simp
  after := rfl
  ok := by simp [foldCommands]
  emitted := rfl

theorem Pass.single {i : Instr} (hi : i.channel = ch ∧ i.unit = u) (h : unitStep i c = (c', okReply out)) :
    Pass ch u [i] c c' out where
  port := by simpa using hi
  after := by simp [foldCommands, h]
  ok := by simp [foldCommands, h]
  emitted := by simp [foldCommands, h]

theorem Pass.append (h : Pass ch u l c c' out) (h' : Pass ch u l' c' c'' out') :
    Pass ch u (l ++ l') c c'' (out ++ out') := by
  obtain ⟨hport, rfl, hok, rfl⟩ := h
  obtain ⟨hport', rfl, hok', rfl⟩ := h'
  have hfold := foldCommands_append l l' c
  refine ⟨fun i hi => (List.mem_append.mp hi).elim (hport i) (hport' i), by rw [hfold], ?_, ?_⟩
  · rw [hfold]
    exact fun r hr => (List.mem_append.mp hr).elim (hok r) (hok' r)
  · rw [hfold, List.flatMap_append]

theorem Pass.cons {i : Instr} (hi : i.channel = ch ∧ i.unit = u) (h : unitStep i c = (c', okReply out))
    (h' : Pass ch u l c' c'' out') : Pass ch u (i :: l) c c'' (out ++ out') :=
  (Pass.single hi h).append h'

/-- The responses come from the ports of the commands. -/
theorem mem_foldCommands_port (hport : ∀ i ∈ l, i.channel = ch ∧ i.unit = u) {r : Response}
    (hr : r ∈ (foldCommands l c).2) : r.channel = ch ∧ r.unit = u := by
  induction l generalizing c with
  | nil => cases hr
  | cons i l ih =>
    obtain rfl | hr := List.mem_cons.mp hr
    · exact hport i (List.mem_cons_self ..)
    · exact ih (fun j hj => hport j (List.mem_cons_of_mem _ hj)) hr

/-- The run of a pass that is issued on an existing channel, whatever is issued after it. -/
theorem Pass.run (h : Pass ch u l c c' out) {s : State} {rest : List Input}
    (hc : s.channels[ch]? = some c) (hi : s.inputs = issue l ++ rest) :
    ∃ rs, performSteps l.length s = .next
        { channels := s.channels.set ch c', inputs := rest, responses := s.responses ++ rs }
      ∧ rs.length = l.length
      ∧ (∀ r ∈ rs, r.channel = ch ∧ r.unit = u ∧ r.status = .ok)
      ∧ outputOf ch u rs = out := by
  obtain ⟨hport, rfl, hok, rfl⟩ := h
  refine ⟨(foldCommands l c).2, ?_, foldCommands_length l c, fun r hr => ?_, ?_⟩
  · exact performSteps_issue l ch (fun i hi => (hport i hi).1) (fun i _ => decodeOfEncodeIsTheCommand i) rest hc hi
  · obtain ⟨hch, hu⟩ := mem_foldCommands_port hport hr
    exact ⟨hch, hu, hok r hr⟩
  · exact outputOf_eq_flatMap fun r hr => mem_foldCommands_port hport hr

end

end Sys2Proof.Proofs
end

section
/-! The upsampler's pass (41_upsampler.md R107). -/

namespace Sys2Proof.Proofs

open Sys2Proof.Machine Sys2Proof.Laws

/-! The Signal's blocks, one after the other. -/

theorem blk_eq_map_blockElement (m : UpsMode) (a b : Num) :
    blk m a b = (List.range 32).map (blockElement m a b) := by
  cases m <;> rfl

/-- Block 0, then the output for the Signal without its first sample. -/
theorem upsample_cons (m : UpsMode) (a : Num) (s : List Num) :
    upsample m (a :: s) = (List.range 32).map (upsampleAt m (a :: s) 0) ++ upsample m s := by
  have hlen : 32 * (a :: s).length = 32 + 32 * s.length := by rw [List.length_cons]; omega
  rw [upsample, oversample_eq, hlen, List.range_add, List.map_append, List.map_map]
  refine congrArg₂ (· ++ ·) (List.map_congr_left fun j hj => ?_) (List.map_congr_left fun j _ => ?_)
  · have hlt := List.mem_range.mp hj
    rw [Nat.div_eq_of_lt hlt, Nat.mod_eq_of_lt hlt]
  · have hdiv : (32 + j) / 32 = j / 32 + 1 := by omega
    have hmod : (32 + j) % 32 = j % 32 := by omega
    simp only [Function.comp_apply, hdiv, hmod, oversample_eq]
    rfl

theorem upsample_cons_cons (m : UpsMode) (a b : Num) (s : List Num) :
    upsample m (a :: b :: s) = blk m a b ++ upsample m (b :: s) := by
  rw [upsample_cons, blk_eq_map_blockElement]
  rfl

theorem upsample_singleton (m : UpsMode) (a : Num) : upsample m [a] = List.replicate 32 a :=
  upsample_replicate m 1 a

section
variable (ch : Nat) (c : Channel) (m : UpsMode)

/-- From a held sample `a` to the end of the pass: each push emits the block of the sample before it, and the
flush that of the last one. -/
theorem upsPass_from_held (a : Num) (signal : List Num) :
    Pass ch .ups (signal.map (.upsPush ch) ++ [.upsFlush ch])
      { c with ups := { run := true, mode := m, valid := true, prev := a } }
      { c with ups := { run := false, mode := m, valid := false, prev := 0 } }
      (nums (upsample m (a :: signal))) := by
  induction signal generalizing a with
  | nil =>
    rw [upsample_singleton, nums_replicate]
    exact .single ⟨rfl, rfl⟩ (unitStep_upsFlush_open rfl)
  | cons v signal ih =>
    rw [upsample_cons_cons, nums, List.map_append]
    exact .cons ⟨rfl, rfl⟩ (unitStep_upsPush_later v rfl rfl) (ih v)

theorem upsPass (signal : List Num) :
    Pass ch .ups (upsampleProgram ch m signal) c
      { c with ups := { run := false, mode := m, valid := false, prev := 0 } }
      (nums (upsample m signal)) := by
  refine Pass.cons (i := .upsStart ch m) (out := []) ⟨rfl, rfl⟩ rfl ?_
  cases signal with
  | nil => exact .single ⟨rfl, rfl⟩ (unitStep_upsFlush_open rfl)
  | cons a signal =>
    exact .cons (out := []) ⟨rfl, rfl⟩ (unitStep_upsPush_first a rfl rfl) (upsPass_from_held ch c m a signal)

end

theorem upsampleProgram_length (ch : Nat) (m : UpsMode) (signal : List Num) :
    (upsampleProgram ch m signal).length = signal.length + 2 := by
  simp [upsampleProgram]

/-- Settles O39: the run of the upsampler's pass. -/
theorem upsamplePassComputesUpsample : Obligations.UpsamplePassComputesUpsample := by
  intro s ch c m signal rest hc hi
  have hrun := (upsPass ch c m signal).run hc hi
  rwa [upsampleProgram_length] at hrun

end Sys2Proof.Proofs
end

section
/-! The modulator's passes of either order, and what the spec derives of them (42_modulator.md R130 to R132). -/

namespace Sys2Proof.Proofs

open Sys2Proof.Machine Sys2Proof.Laws

/-! The accumulators after a list of inputs. -/

/-- The order-1 error after the inputs, from error `e` (R120). -/
def errorAfter (e : Num) : List Num → Num
  | [] => e
  | x :: xs => errorAfter (x + e - pv (comparatorOrder1 (x + e))) xs

/-- The order-2 integrators after the inputs, from `i` and `j` (R121). -/
def integratorsAfter (i j : Num) : List Num → Num × Num
  | [] => (i, j)
  | x :: xs =>
    let b := comparatorOrder2 j
    integratorsAfter (i + x - pv b) (j - pv b + (i + x - pv b)) xs

/-- The error is what the inputs are ahead of the pulses. -/
theorem errorAfter_eq (e : Num) (xs : List Num) :
    errorAfter e xs = e + xs.sum - ((modulateOrder1From e xs).map pv).sum := by
  induction xs generalizing e with
  | nil => simp [errorAfter, modulateOrder1From]
  | cons x xs ih =>
    rw [errorAfter, ih, modulateOrder1From]
    simp only [List.map_cons, List.sum_cons]
    ring

/-! The steps of an open pass. -/

section
variable (ch : Nat)

theorem dsmPass_first {c : Channel} (hrun : c.dsm.run = true) (hord : c.dsm.order = .first) (xs : List Num) :
    Pass ch .dsm (xs.map (.dsmStep ch)) c
      { c with dsm := { c.dsm with error := errorAfter c.dsm.error xs } }
      (pulses (modulateOrder1From c.dsm.error xs)) := by
  induction xs generalizing c with
  | nil => exact .nil
  | cons x xs ih =>
    exact .cons ⟨rfl, rfl⟩ (unitStep_dsmStep_first hrun hord rfl) (ih (c := { c with dsm := _ }) hrun hord)

theorem dsmPass_second {c : Channel} (hrun : c.dsm.run = true) (hord : c.dsm.order = .second)
    (xs : List Num) :
    Pass ch .dsm (xs.map (.dsmStep ch)) c
      { c with dsm := { c.dsm with
        integrator := (integratorsAfter c.dsm.integrator c.dsm.integrator2 xs).1,
        integrator2 := (integratorsAfter c.dsm.integrator c.dsm.integrator2 xs).2 } }
      (pulses (modulateOrder2From c.dsm.integrator c.dsm.integrator2 xs)) := by
  induction xs generalizing c with
  | nil => exact .nil
  | cons x xs ih =>
    exact .cons ⟨rfl, rfl⟩ (unitStep_dsmStep_second hrun hord rfl) (ih (c := { c with dsm := _ }) hrun hord)

theorem dsmPass_first_from_start (c : Channel) (xs : List Num) :
    Pass ch .dsm (.dsmStart ch .first :: xs.map (.dsmStep ch)) c
      { c with dsm :=
        { run := true, order := .first, error := errorAfter 0 xs, integrator := 0, integrator2 := 0 } }
      (pulses (modulateOrder1 xs)) :=
  .cons (out := []) ⟨rfl, rfl⟩ rfl (dsmPass_first ch rfl rfl xs)

theorem dsmPass_second_from_start (c : Channel) (xs : List Num) :
    Pass ch .dsm (.dsmStart ch .second :: xs.map (.dsmStep ch)) c
      { c with dsm :=
        { run := true, order := .second, error := 0, integrator := (integratorsAfter 0 0 xs).1,
          integrator2 := (integratorsAfter 0 0 xs).2 } }
      (pulses (modulateOrder2 xs)) :=
  .cons (out := []) ⟨rfl, rfl⟩ rfl (dsmPass_second ch rfl rfl xs)

/-- A fresh pass of either order, up to its stop: it is open and of its order. -/
theorem dsmPass_from_start (c : Channel) (n : DsmOrder) (xs : List Num) :
    ∃ d : Dsm, d.run = true ∧ d.order = n ∧ Pass ch .dsm (.dsmStart ch n :: xs.map (.dsmStep ch)) c
      { c with dsm := d } (pulses (modulate n xs)) := by
  cases n with
  | first => exact ⟨_, rfl, rfl, dsmPass_first_from_start ch c xs⟩
  | second => exact ⟨_, rfl, rfl, dsmPass_second_from_start ch c xs⟩

theorem dsmPass (c : Channel) (n : DsmOrder) (xs : List Num) :
    Pass ch .dsm (modulateProgram ch n xs) c
      { c with dsm := { run := false, order := n, error := 0, integrator := 0, integrator2 := 0 } }
      (pulses (modulate n xs)) := by
  obtain ⟨d, hrun, rfl, hsteps⟩ := dsmPass_from_start ch c n xs
  have hstop : Pass ch .dsm [.dsmStop ch] { c with dsm := d } _ [] :=
    .single ⟨rfl, rfl⟩ (unitStep_dsmStop_open hrun)
  have hall := hsteps.append hstop
  rw [List.append_nil] at hall
  exact hall

end

theorem modulateProgram_length (ch : Nat) (n : DsmOrder) (xs : List Num) :
    (modulateProgram ch n xs).length = xs.length + 2 := by
  simp [modulateProgram]

/-- Settles O40: the run of the modulator's pass. -/
theorem modulatePassComputesModulate : Obligations.ModulatePassComputesModulate := by
  intro s ch c n xs rest hc hi
  have hrun := (dsmPass ch c n xs).run hc hi
  rwa [modulateProgram_length] at hrun

/-- Settles O45, by the sign of `x + dsm.error`. -/
theorem firstOrderErrorStaysBounded : Obligations.FirstOrderErrorStaysBounded := by
  intro s ch c x hc hrun hord hlow hhigh hxlow hxhigh
  obtain ⟨hpulse, hnone⟩ := dsmStepFirstOrder s ch c x hc hrun hord
  obtain hge | hlt := le_or_gt 0 (x + c.dsm.error)
  · exact ⟨_, _, hpulse hge, getChannel_putChannel _ hc, by linarith, by linarith⟩
  · exact ⟨_, _, hnone hlt, getChannel_putChannel _ hc, by linarith, by linarith⟩

/-- Settles O46: the error at the end of an order-1 run is what the inputs are ahead of the pulses. -/
theorem firstOrderErrorIsInputsLessPulses : Obligations.FirstOrderErrorIsInputsLessPulses := by
  intro s ch c xs rest hc hi
  obtain ⟨rs, hrun, -⟩ := (dsmPass_first_from_start ch c xs).run hc hi
  rw [List.length_cons, List.length_map] at hrun
  have herror := errorAfter_eq 0 xs
  rw [zero_add] at herror
  exact ⟨_, _, hrun, getChannel_putChannel _ hc, herror⟩

/-! Order 2 at full scale. -/

/-- Once the second integrator is positive every pulse is high and it grows by full scale. -/
theorem order2_fullScale {j : Num} (hj : 0 < j) (n : Nat) :
    integratorsAfter 65536 j (List.replicate n 32768) = (65536, j + 32768 * (n : Num))
    ∧ modulateOrder2From 65536 j (List.replicate n 32768) = List.replicate n true := by
  induction n generalizing j with
  | zero => simp [integratorsAfter, modulateOrder2From]
  | succ n ih =>
    have hi : (65536 : Num) + 32768 - 32768 = 65536 := by norm_num
    obtain ⟨hafter, hpulses⟩ := ih (j := j - 32768 + 65536) (by linarith)
    simp only [List.replicate_succ, integratorsAfter, modulateOrder2From, comparatorOrder2_pos hj, pv_true, hi,
      hafter, hpulses, Prod.mk.injEq, true_and, and_true, Nat.cast_add, Nat.cast_one]
    ring

/-- From zero the first pulse is low, and sets both integrators. -/
theorem order2_fullScale_from_zero (n : Nat) :
    integratorsAfter 0 0 (List.replicate (n + 1) 32768) = (65536, 65536 + 32768 * ((n : Num) + 1))
    ∧ modulateOrder2From 0 0 (List.replicate (n + 1) 32768) = false :: List.replicate n true := by
  obtain ⟨hafter, hpulses⟩ := order2_fullScale (j := 98304) (by norm_num) n
  have hi : (0 : Num) + 32768 - -32768 = 65536 := by norm_num
  have hj : (0 : Num) - -32768 + 65536 = 98304 := by norm_num
  simp only [List.replicate_succ, integratorsAfter, modulateOrder2From, comparatorOrder2_nonpos le_rfl, pv_false,
    hi, hj, hafter, hpulses, Prod.mk.injEq, true_and, and_true]
  ring

/-- Settles O47: the run of an order-2 pass whose inputs are all full scale. -/
theorem secondOrderGrowsAtFullScale : Obligations.SecondOrderGrowsAtFullScale := by
  intro s ch c n rest hc hi
  obtain ⟨hafter, hpulses⟩ := order2_fullScale_from_zero n
  have hpass := dsmPass_second_from_start ch c (List.replicate (n + 1) 32768)
  rw [List.map_replicate, modulateOrder2, hafter, hpulses] at hpass
  obtain ⟨rs, hrun, -, hok, hout⟩ := hpass.run hc hi
  rw [List.length_cons, List.length_replicate] at hrun
  refine ⟨_, _, rs, hrun, getChannel_putChannel _ hc, rfl, rfl, rfl, fun r hr => (hok r hr).2.2, ?_⟩
  rw [hout, pulses, List.map_cons, List.map_replicate]

/-- Settles O48: the four pulses and the integrators after them, computed from zero. -/
theorem secondOrderZeroInputHasPeriodFour : Obligations.SecondOrderZeroInputHasPeriodFour := by
  intro s ch c rest hc hrun hord hi0 hj0 hi
  have hafter : integratorsAfter c.dsm.integrator c.dsm.integrator2 [0, 0, 0, 0]
      = (c.dsm.integrator, c.dsm.integrator2) := by
    rw [hi0, hj0]
    decide +kernel
  have hpulses : modulateOrder2From c.dsm.integrator c.dsm.integrator2 [0, 0, 0, 0]
      = [false, true, true, false] := by
    rw [hi0, hj0]
    decide +kernel
  have hpass : Pass ch .dsm ([0, 0, 0, 0].map (.dsmStep ch)) c c (pulses [false, true, true, false]) := by
    have hsteps := dsmPass_second ch hrun hord [0, 0, 0, 0]
    rw [hafter, hpulses] at hsteps
    exact hsteps
  obtain ⟨rs, hsteps, -, hok, hout⟩ := hpass.run hc hi
  have hsame : s.channels.set ch c = s.channels := congrArg State.channels (putChannel_same hc)
  rw [hsame] at hsteps
  exact ⟨rs, hsteps, fun r hr => (hok r hr).2.2, hout⟩

end Sys2Proof.Proofs
end

section
/-! The demodulator's pass (43_demodulator.md R142, R145). -/

namespace Sys2Proof.Proofs

open Sys2Proof.Machine Sys2Proof.Laws

section
variable (k1 k2 k3 : Num) (p : List Pulse)

/-- The sum of the first `r` samples of block `j` at the third stage. -/
def blockSum (j r : Nat) : Num :=
  ((List.range r).map fun i => (cascade k1 k2 k3 p (32 * j + i + 1)).2.2).sum

theorem blockSum_succ (j r : Nat) :
    blockSum k1 k2 k3 p j (r + 1) = blockSum k1 k2 k3 p j r + (cascade k1 k2 k3 p (32 * j + r + 1)).2.2 := by
  simp [blockSum, List.range_succ]

theorem blockMean_eq (j : Nat) : blockMean k1 k2 k3 p j = blockSum k1 k2 k3 p j 32 / 32 := rfl

/-- The DEC registers after the first `n` pulses of a pass: the three stages of R142, and the sum of the
block that pulse `n` has left open. -/
def decAfter (n : Nat) : Dec where
  run := true
  k1 := k1
  k2 := k2
  k3 := k3
  y1 := (cascade k1 k2 k3 p n).1
  y2 := (cascade k1 k2 k3 p n).2.1
  y3 := (cascade k1 k2 k3 p n).2.2
  period := blockSum k1 k2 k3 p (n / 32) (n % 32)
  cnt := n % 32

variable {k1 k2 k3 p}

/-- The filter of `DEC.STEP` makes one step of the cascade. -/
theorem filterPulse_decAfter (n : Nat) :
    filterPulse (p.getD n false) (decAfter k1 k2 k3 p n) = { decAfter k1 k2 k3 p n with
      y1 := (cascade k1 k2 k3 p (n + 1)).1
      y2 := (cascade k1 k2 k3 p (n + 1)).2.1
      y3 := (cascade k1 k2 k3 p (n + 1)).2.2 } :=
  rfl

/-- The sum of the open block with the sample of the next pulse. -/
theorem period_add_sample (n : Nat) :
    blockSum k1 k2 k3 p (n / 32) (n % 32) + (cascade k1 k2 k3 p (n + 1)).2.2
      = blockSum k1 k2 k3 p (n / 32) (n % 32 + 1) := by
  rw [blockSum_succ, Nat.div_add_mod]

variable {ch : Nat} {c : Channel}

/-- Inside a block the pulse is only added. -/
theorem unitStep_decStep_inside {n : Nat} (hn : n % 32 + 1 ≠ 32) :
    unitStep (.decStep ch (p.getD n false)) { c with dec := decAfter k1 k2 k3 p n }
      = ({ c with dec := decAfter k1 k2 k3 p (n + 1) }, okReply []) := by
  have hdiv : (n + 1) / 32 = n / 32 := by omega
  have hmod : (n + 1) % 32 = n % 32 + 1 := by omega
  rw [unitStep_decStep_partial rfl (filterPulse_decAfter n) hn]
  simp only [decAfter, period_add_sample, hdiv, hmod]

/-- The last pulse of a block emits its mean. -/
theorem unitStep_decStep_last {n : Nat} (hn : n % 32 + 1 = 32) :
    unitStep (.decStep ch (p.getD n false)) { c with dec := decAfter k1 k2 k3 p n }
      = ({ c with dec := decAfter k1 k2 k3 p (n + 1) },
        okReply [.num (blockMean k1 k2 k3 p (n / 32))]) := by
  have hmod : (n + 1) % 32 = 0 := by omega
  rw [unitStep_decStep_complete rfl (filterPulse_decAfter n) hn]
  simp only [decAfter, period_add_sample, hn, hmod, ← blockMean_eq]
  rfl

variable (k1 k2 k3 p ch c)

/-- The first `n` pulses of a pass emit the means of the blocks they complete. -/
theorem decPass_take {n : Nat} (hn : n ≤ p.length) :
    Pass ch .dec ((p.take n).map (.decStep ch)) { c with dec := decAfter k1 k2 k3 p 0 }
      { c with dec := decAfter k1 k2 k3 p n } (nums ((List.range (n / 32)).map (blockMean k1 k2 k3 p))) := by
  induction n with
  | zero => exact .nil
  | succ n ih =>
    have htake : p.take (n + 1) = p.take n ++ [p.getD n false] := by
      rw [List.take_add_one, List.getD_eq_getElem?_getD, List.getElem?_eq_getElem hn]
      rfl
    rw [htake, List.map_append]
    by_cases hlast : n % 32 + 1 = 32
    · have hdiv : (n + 1) / 32 = n / 32 + 1 := by omega
      rw [hdiv, List.range_succ, List.map_append, nums, List.map_append]
      exact (ih (Nat.le_of_succ_le hn)).append (.single ⟨rfl, rfl⟩ (unitStep_decStep_last hlast))
    · have hdiv : (n + 1) / 32 = n / 32 := by omega
      rw [hdiv, ← List.append_nil (nums _)]
      exact (ih (Nat.le_of_succ_le hn)).append (.single ⟨rfl, rfl⟩ (unitStep_decStep_inside hlast))

variable {k1 k2 k3}

theorem decPass (hk1 : 0 < k1 ∧ k1 < 1) (hk2 : 0 < k2 ∧ k2 < 1) (hk3 : 0 < k3 ∧ k3 < 1) :
    Pass ch .dec (demodulateProgram ch p k1 k2 k3) c
      { c with dec :=
        { run := false, k1 := k1, k2 := k2, k3 := k3, y1 := 0, y2 := 0, y3 := 0, period := 0, cnt := 0 } }
      (nums (demodulate3 p k1 k2 k3)) := by
  have hstart : Pass ch .dec [.decStart ch k1 k2 k3] c { c with dec := decAfter k1 k2 k3 p 0 } [] :=
    .single ⟨rfl, rfl⟩ (unitStep_decStart_legal ⟨hk1, hk2, hk3⟩)
  have hsteps := decPass_take k1 k2 k3 p ch c le_rfl
  rw [List.take_length] at hsteps
  have hstop : Pass ch .dec [.decStop ch] { c with dec := decAfter k1 k2 k3 p p.length } _ [] :=
    .single ⟨rfl, rfl⟩ (unitStep_decStop_open rfl)
  have hall := hstart.append (hsteps.append hstop)
  rw [List.append_nil] at hall
  exact hall

end

theorem demodulateProgram_length (ch : Nat) (p : List Pulse) (k1 k2 k3 : Num) :
    (demodulateProgram ch p k1 k2 k3).length = p.length + 2 := by
  simp [demodulateProgram]

/-- Settles O41: the run of the demodulator's pass. -/
theorem demodulatePassComputesDemodulate : Obligations.DemodulatePassComputesDemodulate := by
  intro s ch c k1 k2 k3 p rest hk1 hk2 hk3 hc hi
  have hrun := (decPass p ch c hk1 hk2 hk3).run hc hi
  rwa [demodulateProgram_length] at hrun

end Sys2Proof.Proofs
end

section
/-! The round trip: three passes one after the other on one channel (30_encoding.md R93). -/

namespace Sys2Proof.Proofs

open Sys2Proof.Machine Sys2Proof.Laws

/-- Nothing shows on a port to which no response belongs. -/
theorem outputOf_eq_nil {ch : Nat} {u v : UnitName} {rs : List Response} (h : ∀ r ∈ rs, r.unit = v)
    (huv : v ≠ u) : outputOf ch u rs = [] := by
  have hfilter : (rs.filter fun r => r.channel == ch && r.unit == u) = [] :=
    List.filter_eq_nil_iff.mpr fun r hr => by simp [h r hr, huv]
  rw [outputOf, hfilter, List.flatMap_nil]

/-- The run of a pass as one leg of a longer run: what it leaves of the channel and the inputs, and what its
responses show on the port of its unit and on the others. -/
theorem Pass.leg {ch : Nat} {u : UnitName} {l : List Instr} {c c' : Channel} {out : List Datum}
    (h : Pass ch u l c c' out) {s : State} {rest : List Input} (hc : s.channels[ch]? = some c)
    (hi : s.inputs = issue l ++ rest) :
    ∃ t rs, performSteps l.length s = .next t ∧ t.channels[ch]? = some c' ∧ t.inputs = rest
      ∧ t.responses = s.responses ++ rs ∧ (∀ r ∈ rs, r.status = .ok)
      ∧ outputOf ch u rs = out ∧ ∀ v, u ≠ v → outputOf ch v rs = [] := by
  obtain ⟨rs, hrun, -, hok, hout⟩ := h.run hc hi
  exact ⟨_, rs, hrun, getChannel_putChannel c' hc, rfl, rfl, fun r hr => (hok r hr).2.2, hout,
    fun _ huv => outputOf_eq_nil (fun r hr => (hok r hr).2.1) huv⟩

/-- Settles O42: the passes run one after the other, and each port shows the output of its own unit's pass. -/
theorem roundtripComputesRoundtrip : Obligations.RoundtripComputesRoundtrip := by
  intro s ch c m n k signal hk hc hi
  have hi' : s.inputs = issue (upsampleProgram ch m signal)
      ++ (issue (modulateProgram ch n (upsample m signal))
      ++ (issue (demodulateProgram ch (modulate n (upsample m signal)) k k k) ++ [])) := by
    rw [hi, roundtripProgram, issue_append, issue_append, List.append_nil]
  obtain ⟨s1, ups, hups, hc1, hi1, hr1, hupsOk, hupsOut, hupsElse⟩ := (upsPass ch c m signal).leg hc hi'
  obtain ⟨s2, dsm, hdsm, hc2, hi2, hr2, hdsmOk, hdsmOut, hdsmElse⟩ :=
    (dsmPass ch _ n (upsample m signal)).leg hc1 hi1
  obtain ⟨s3, dec, hdec, -, -, hr3, hdecOk, hdecOut, hdecElse⟩ := (decPass _ ch _ hk hk hk).leg hc2 hi2
  refine ⟨s3, ups ++ (dsm ++ dec), ?_, ?_, ?_, ?_, ?_, ?_⟩
  · rw [roundtripProgram, List.length_append, List.length_append, performSteps_add _ _ hups,
      performSteps_add _ _ hdsm, hdec]
  · rw [hr3, hr2, hr1, List.append_assoc, List.append_assoc]
  · intro r hr
    obtain hr | hr | hr := by simpa only [List.mem_append] using hr
    · exact hupsOk r hr
    · exact hdsmOk r hr
    · exact hdecOk r hr
  all_goals rw [outputOf_append, outputOf_append]
  · rw [hupsOut, hdsmElse _ (by decide), hdecElse _ (by decide), List.append_nil, List.append_nil, nums]
  · rw [hupsElse _ (by decide), hdsmOut, hdecElse _ (by decide), List.nil_append, List.append_nil, pulses]
  · rw [hupsElse _ (by decide), hdsmElse _ (by decide), hdecOut, List.nil_append, List.nil_append, nums]
    rfl

end Sys2Proof.Proofs
end

section
/-! The offset search on the block: its passes one after the other on one DEC unit, and the host's result from
their joined output (44_reference_software.md R168, R171; log entry 17). -/

namespace Sys2Proof.Proofs

open Sys2Proof.Machine Sys2Proof.Laws

/-- The registers of channel `c` after a DEC pass with all coefficients `k`. -/
def decClosed (k : Num) (c : Channel) : Channel :=
  { c with dec :=
    { run := false, k1 := k, k2 := k, k3 := k, y1 := 0, y2 := 0, y3 := 0, period := 0, cnt := 0 } }

/-- The reconstructions of the first `n` rotations, joined. -/
def reconstructions (p : List Pulse) (k : Num) (n : Nat) : List Num :=
  (List.range n).flatMap fun o => demodulate (rotl p o) k

theorem reconstructions_succ (p : List Pulse) (k : Num) (n : Nat) :
    reconstructions p k (n + 1) = reconstructions p k n ++ demodulate (rotl p n) k := by
  simp [reconstructions, List.range_succ]

/-- The passes of at least one offset: each starts afresh, whatever the one before it has left. -/
theorem offsetPasses_pass (ch : Nat) (c : Channel) (p : List Pulse) {k : Num} (hk : 0 < k ∧ k < 1) (n : Nat) :
    Pass ch .dec (offsetPasses ch p k (n + 1)) c (decClosed k c) (nums (reconstructions p k (n + 1))) := by
  induction n with
  | zero =>
    rw [offsetPasses_succ, reconstructions_succ]
    exact decPass (rotl p 0) ch c hk hk hk
  | succ n ih =>
    rw [offsetPasses_succ, reconstructions_succ, nums, List.map_append]
    exact ih.append (decPass (rotl p (n + 1)) ch (decClosed k c) hk hk hk)

theorem offsetPasses_length (ch : Nat) (p : List Pulse) (k : Num) (n : Nat) :
    (offsetPasses ch p k n).length = n * (p.length + 2) := by
  rw [offsetPasses, length_flatMap_chunks (w := p.length + 2) fun o _ => by
    rw [demodulateProgram_length, rotl_length], Nat.mul_comm]

/-- The host finds each pass's samples by their known number. -/
theorem passOutput_reconstructions (p : List Pulse) (k : Num) {n o : Nat} (ho : o < n) :
    passOutput (reconstructions p k n) p.length o = demodulate (rotl p o) k :=
  take_drop_flatMap_chunks (fun j _ => by rw [demodulate_length, rotl_length, oversample_eq]) ho

/-- From responses that show the reconstructions, the host computes the result of the search. -/
theorem searchFromResponses_eq {ch : Nat} {p : List Pulse} {original : List Num} {n : Nat} {k : Num}
    {rs : List Response} (hn : 1 ≤ n) (hk : 0 < k ∧ k < 1) (hp : 32 ≤ p.length) (ho : original ≠ [])
    (hout : outputOf ch .dec rs = nums (reconstructions p k n)) :
    searchFromResponses ch p original (n : Int) k rs = searchBestOffset p original (n : Int) k := by
  rw [searchBestOffset_eq_ok hn hk hp ho]
  simp only [searchFromResponses, searchRefusal_eq_none hn hk hp ho, hout, nums, numsIn_map_num,
    Int.toNat_natCast]
  refine congrArg Except.ok (leastErrorUpTo_congr fun o ho => ?_)
  rw [passOutput_reconstructions p k (by omega)]
  rfl

/-- Settles O54: the run of all the offsets' passes, and what the host makes of its responses. -/
theorem searchCommandsComputeTheSearch : Obligations.SearchCommandsComputeTheSearch := by
  intro s ch c p original maxOffset k rest hn hk hp ho hc hi
  obtain ⟨n, rfl⟩ := Nat.exists_eq_add_of_le' hn
  have hprogram : searchProgram ch p original ((n + 1 : Nat) : Int) k = offsetPasses ch p k (n + 1) := by
    simp only [searchProgram, searchRefusal_eq_none hn hk hp ho, Int.toNat_natCast]
  rw [hprogram] at hi
  obtain ⟨rs, hrun, hlen, hok, hout⟩ := (offsetPasses_pass ch c p hk n).run hc hi
  rw [offsetPasses_length] at hrun hlen
  exact ⟨rs, hrun, hlen, hok, hout, searchFromResponses_eq hn hk hp ho hout⟩

end Sys2Proof.Proofs
end
